-- ==== Sys2Proof/Word.lean ====
section
/-! DEFINITION. The widths of the machine's values (00_scope.md R9, R12; 10_state.md R21). -/

namespace Sys2Proof

/-- A value of the B-bus, the C-bus or a C-bus register: 32 bits (R9, R12). -/
abbrev Word := BitVec 32

/-- A byte of main memory and the byte buffer: 8 bits (R9, R26). -/
abbrev Byte := BitVec 8

/-- A control-store address: 9 bits (R9, R35). -/
abbrev CsAddr := BitVec 9

/-- The significant bits of a microinstruction: 36 bits (R70). -/
abbrev MicroWord := BitVec 36

/-- A control-store entry: the 64-bit container of a microinstruction (R39, R70). -/
abbrev Container := BitVec 64

end Sys2Proof
end

