-- ==== Sys2Proof/Config.lean ====
section
/-! DEFINITION. The parameters of the machine (00_scope.md R10, 10_state.md R44) and the fixed numbers of R9. -/

namespace Sys2Proof

/-- The 16 ALU functions, by name (41_bus_alu.md R111). -/
inductive AluFn where
  | zero | one | minusOne | and | b | h | notH | or
  | notB | bInc | bDec | hInc | negH | add | addInc | sub
deriving DecidableEq, Repr

/-- `ALU_CODE_MAP`: for each of the 64 codes, the function it selects or none (R10, R77). -/
abbrev AluCodeMap := Vector (Option AluFn) 64

/-- The open parameters that a cycle consults (R10, R44).
They are no state of the core: no instruction reads them as data, and no step changes them.
`MEM_INIT` is consulted at reset only (an argument of `Machine.boot`), and `HALT` between cycles only
(an argument of `Machine.runUntil`). DESIGN CHOICE (log 1), safe: a statement about every state is a statement about
every value of the parameters. -/
structure Params where
  /-- `STRICT`: strict or permissive handling of invalid control signals (R10, R17). -/
  strict : Bool
  /-- `MEM_SIZE`: the capacity of main memory in bytes (R10, R51). -/
  memSize : Nat
  /-- `ALU_CODE_MAP` (R10, R77). -/
  aluCodeMap : AluCodeMap
deriving DecidableEq, Repr

/-- The program region starts at byte offset 1025 (R9, R63). -/
def programStart : Nat := 1025

/-- The initialization region is 20 bytes at byte offset 0 (R9, R63). -/
def initRegionSize : Nat := 20

/-- The constraint on `MEM_SIZE`: at least 1025 bytes (R10). -/
abbrev Params.wf (p : Params) : Prop := 1025 ≤ p.memSize

end Sys2Proof
end

