-- ==== Sys2Proof/Syntax.lean ====
section
/-! DEFINITION. The instruction rows: one constructor for each row of spec/opcode_table.json, in the table's order.

A row is one value of a single-valued field or one bit of a bitmask field (30_encoding.md R80). "A decoder built from the
table applies every row whose pattern matches", so a microinstruction is the LIST of the rows that match its word
(Decode.lean), and a cycle applies them in the order of 45_cycle_driver.md R211 (Machine/Cycle.lean).
DESIGN CHOICE (log 4), safe: the spec's rules R101 to R196 give each row its own effect, and the cycle is their sequence. -/

namespace Sys2Proof

/-- The rows of the opcode table. -/
inductive Instr where
  -- b_select
  /-- `B=MDR` (R101). -/
  | bMdr
  /-- `B=PC` (R102). -/
  | bPc
  /-- `B=MBR` (R103). -/
  | bMbr
  /-- `B=MBRU` (R104). -/
  | bMbru
  /-- `B=SP` (R105). -/
  | bSp
  /-- `B=LV` (R106). -/
  | bLv
  /-- `B=CPP` (R107). -/
  | bCpp
  /-- `B=TOS` (R108). -/
  | bTos
  /-- `B=OPC` (R109). -/
  | bOpc
  /-- `B=#9` (R110). -/
  | b9
  /-- `B=#10` (R110). -/
  | b10
  /-- `B=#11` (R110). -/
  | b11
  /-- `B=#12` (R110). -/
  | b12
  /-- `B=#13` (R110). -/
  | b13
  /-- `B=#14` (R110). -/
  | b14
  /-- `B=#15` (R110). -/
  | b15
  -- alu_op
  /-- `ALU=ZERO` (R114). -/
  | aluZero
  /-- `ALU=ONE` (R115). -/
  | aluOne
  /-- `ALU=MINUS_ONE` (R116). -/
  | aluMinusOne
  /-- `ALU=AND` (R117). -/
  | aluAnd
  /-- `ALU=B` (R118). -/
  | aluB
  /-- `ALU=H` (R119). -/
  | aluH
  /-- `ALU=NOT_H` (R120). -/
  | aluNotH
  /-- `ALU=OR` (R121). -/
  | aluOr
  /-- `ALU=NOT_B` (R122). -/
  | aluNotB
  /-- `ALU=B_INC` (R123). -/
  | aluBInc
  /-- `ALU=B_DEC` (R124). -/
  | aluBDec
  /-- `ALU=H_INC` (R125). -/
  | aluHInc
  /-- `ALU=NEG_H` (R126). -/
  | aluNegH
  /-- `ALU=ADD` (R127). -/
  | aluAdd
  /-- `ALU=ADD_INC` (R128). -/
  | aluAddInc
  /-- `ALU=SUB` (R129). -/
  | aluSub
  /-- `ALU=#0` (R130). -/
  | alu0
  /-- `ALU=#1` (R130). -/
  | alu1
  /-- `ALU=#2` (R130). -/
  | alu2
  /-- `ALU=#3` (R130). -/
  | alu3
  /-- `ALU=#4` (R130). -/
  | alu4
  /-- `ALU=#5` (R130). -/
  | alu5
  /-- `ALU=#6` (R130). -/
  | alu6
  /-- `ALU=#7` (R130). -/
  | alu7
  /-- `ALU=#8` (R130). -/
  | alu8
  /-- `ALU=#9` (R130). -/
  | alu9
  /-- `ALU=#10` (R130). -/
  | alu10
  /-- `ALU=#11` (R130). -/
  | alu11
  /-- `ALU=#13` (R130). -/
  | alu13
  /-- `ALU=#14` (R130). -/
  | alu14
  /-- `ALU=#15` (R130). -/
  | alu15
  /-- `ALU=#19` (R130). -/
  | alu19
  /-- `ALU=#21` (R130). -/
  | alu21
  /-- `ALU=#22` (R130). -/
  | alu22
  /-- `ALU=#23` (R130). -/
  | alu23
  /-- `ALU=#25` (R130). -/
  | alu25
  /-- `ALU=#27` (R130). -/
  | alu27
  /-- `ALU=#29` (R130). -/
  | alu29
  /-- `ALU=#30` (R130). -/
  | alu30
  /-- `ALU=#31` (R130). -/
  | alu31
  /-- `ALU=#32` (R130). -/
  | alu32
  /-- `ALU=#33` (R130). -/
  | alu33
  /-- `ALU=#34` (R130). -/
  | alu34
  /-- `ALU=#35` (R130). -/
  | alu35
  /-- `ALU=#36` (R130). -/
  | alu36
  /-- `ALU=#37` (R130). -/
  | alu37
  /-- `ALU=#38` (R130). -/
  | alu38
  /-- `ALU=#39` (R130). -/
  | alu39
  /-- `ALU=#40` (R130). -/
  | alu40
  /-- `ALU=#41` (R130). -/
  | alu41
  /-- `ALU=#42` (R130). -/
  | alu42
  /-- `ALU=#43` (R130). -/
  | alu43
  /-- `ALU=#45` (R130). -/
  | alu45
  /-- `ALU=#46` (R130). -/
  | alu46
  /-- `ALU=#47` (R130). -/
  | alu47
  /-- `ALU=#48` (R130). -/
  | alu48
  /-- `ALU=#49` (R130). -/
  | alu49
  /-- `ALU=#50` (R130). -/
  | alu50
  /-- `ALU=#51` (R130). -/
  | alu51
  /-- `ALU=#52` (R130). -/
  | alu52
  /-- `ALU=#55` (R130). -/
  | alu55
  /-- `ALU=#56` (R130). -/
  | alu56
  /-- `ALU=#58` (R130). -/
  | alu58
  /-- `ALU=#62` (R130). -/
  | alu62
  -- shift
  /-- `SH=NONE` (R134). -/
  | shNone
  /-- `SH=SLL8` (R135). -/
  | shSll8
  /-- `SH=SRL1` (R136). -/
  | shSrl1
  /-- `SH=#3` (R137). -/
  | sh3
  -- c_dest
  /-- `C=MAR` (R152). -/
  | cMar
  /-- `C=MDR` (R153). -/
  | cMdr
  /-- `C=PC` (R154). -/
  | cPc
  /-- `C=SP` (R155). -/
  | cSp
  /-- `C=LV` (R156). -/
  | cLv
  /-- `C=CPP` (R157). -/
  | cCpp
  /-- `C=TOS` (R158). -/
  | cTos
  /-- `C=OPC` (R159). -/
  | cOpc
  /-- `C=H` (R160). -/
  | cH
  /-- `C=-` (R161). -/
  | cNone
  -- mem_ops
  /-- `MEM=FETCH` (R172). -/
  | memFetch
  /-- `MEM=RD` (R174). -/
  | memRd
  /-- `MEM=WR` (R176). -/
  | memWr
  /-- `MEM=-` (R180). -/
  | memNone
  -- jump
  /-- `JAM=JAMN` (R191). -/
  | jamN
  /-- `JAM=JAMZ` (R192). -/
  | jamZ
  /-- `JAM=JMPC` (R193). -/
  | jamMpc
  /-- `JAM=-` (R194). -/
  | jamNone
  -- next_addr
  /-- `NEXT=<addr>` (R196). -/
  | nextAddr (addr : CsAddr)
deriving DecidableEq, Repr

/-- The field of the microinstruction word that a row belongs to (R71), in the order of the cycle (R211). -/
inductive FieldKind where
  | bSelect | aluOp | shift | cDest | memOps | jump | nextAddr
deriving DecidableEq, Repr

/-- The field a row belongs to (R71). -/
def Instr.kind : Instr → FieldKind
  | .bMdr | .bPc | .bMbr | .bMbru | .bSp | .bLv | .bCpp | .bTos | .bOpc | .b9
  | .b10 | .b11 | .b12 | .b13 | .b14 | .b15 => .bSelect
  | .aluZero | .aluOne | .aluMinusOne | .aluAnd | .aluB | .aluH | .aluNotH | .aluOr | .aluNotB | .aluBInc
  | .aluBDec | .aluHInc | .aluNegH | .aluAdd | .aluAddInc | .aluSub | .alu0 | .alu1 | .alu2 | .alu3
  | .alu4 | .alu5 | .alu6 | .alu7 | .alu8 | .alu9 | .alu10 | .alu11 | .alu13 | .alu14
  | .alu15 | .alu19 | .alu21 | .alu22 | .alu23 | .alu25 | .alu27 | .alu29 | .alu30 | .alu31
  | .alu32 | .alu33 | .alu34 | .alu35 | .alu36 | .alu37 | .alu38 | .alu39 | .alu40 | .alu41
  | .alu42 | .alu43 | .alu45 | .alu46 | .alu47 | .alu48 | .alu49 | .alu50 | .alu51 | .alu52
  | .alu55 | .alu56 | .alu58 | .alu62 => .aluOp
  | .shNone | .shSll8 | .shSrl1 | .sh3 => .shift
  | .cMar | .cMdr | .cPc | .cSp | .cLv | .cCpp | .cTos | .cOpc | .cH | .cNone => .cDest
  | .memFetch | .memRd | .memWr | .memNone => .memOps
  | .jamN | .jamZ | .jamMpc | .jamNone => .jump
  | .nextAddr _ => .nextAddr

/-- A row's number in the table, counted from 0: the constructors stand in the table's order. -/
def Instr.tableIndex (i : Instr) : Nat := i.ctorIdx

end Sys2Proof
end

