-- ==== Sys2Proof/WellFormed.lean ====
section
/-! DEFINITION. Well-formed microinstructions, as lists of rows.

"A microinstruction is one value of each field" (30_encoding.md R80): one row of each single-valued field, and for each
bitmask field either the row of its empty mask or the rows of its set bits. The rows stand in the table's order, which is
the order of the cycle (R211) and leaves each microinstruction one spelling. -/

namespace Sys2Proof

/-- The numbers rise strictly. -/
def strictlyRising : List Nat → Bool
  | [] => true
  | [_] => true
  | a :: b :: rest => decide (a < b) && strictlyRising (b :: rest)

/-- How many rows of the list belong to a field. -/
def countOf (k : FieldKind) (l : List Instr) : Nat := l.countP (fun i => decide (i.kind = k))

/-- The list gives a single-valued field exactly one value. -/
def oneOf (k : FieldKind) (l : List Instr) : Bool := decide (countOf k l = 1)

/-- The list gives a bitmask field at least one row, and the row of the empty mask only alone. -/
def maskOf (k : FieldKind) (empty : Instr) (l : List Instr) : Bool :=
  decide (1 ≤ countOf k l) && (!l.contains empty || decide (countOf k l = 1))

/-- A list of rows is the microinstruction of some word: every check holds. -/
def WellFormed (l : List Instr) : Bool :=
  strictlyRising (l.map Instr.tableIndex) && oneOf .bSelect l && oneOf .aluOp l && oneOf .shift l
    && maskOf .cDest .cNone l && maskOf .memOps .memNone l && maskOf .jump .jamNone l && oneOf .nextAddr l

end Sys2Proof
end

