-- ==== Sys2Proof/Decode.lean ====
section
/-! DEFINITION. The decoder (40_decoder.md R90 to R93), the encoder (30_encoding.md R82), the reading of control-store
records (70_reset_and_hazards.md R263) and the field-list notation (30_encoding.md R83, R85). -/

namespace Sys2Proof

/-! ### Fields -/

/-- The seven fields of a microinstruction word (R71). -/
structure Fields where
  bSelect  : BitVec 4
  memOps   : BitVec 3
  cDest    : BitVec 9
  aluOp    : BitVec 6
  shift    : BitVec 2
  jump     : BitVec 3
  nextAddr : CsAddr
deriving DecidableEq, Repr

/-- The decoder's field extraction (R91): total on the 36-bit words. -/
def fieldsOf (w : MicroWord) : Fields where
  bSelect  := w.extractLsb' 0 4
  memOps   := w.extractLsb' 4 3
  cDest    := w.extractLsb' 7 9
  aluOp    := w.extractLsb' 16 6
  shift    := w.extractLsb' 22 2
  jump     := w.extractLsb' 24 3
  nextAddr := w.extractLsb' 27 9

/-- The encoding function on fields (R82). -/
def wordOf (f : Fields) : MicroWord :=
  f.bSelect.setWidth 36 ||| (f.memOps.setWidth 36 <<< 4) ||| (f.cDest.setWidth 36 <<< 7) |||
    (f.aluOp.setWidth 36 <<< 16) ||| (f.shift.setWidth 36 <<< 22) ||| (f.jump.setWidth 36 <<< 24) |||
    (f.nextAddr.setWidth 36 <<< 27)

/-! ### The opcode table's patterns -/

/-- The bits a row fixes: `width` bits from bit `lo` hold `value` (the table's "fixed"; for `NEXT`, its operand). -/
structure Placed where
  lo    : Nat
  width : Nat
  value : Nat
deriving DecidableEq, Repr

/-- The bits each row fixes (30_encoding.md R72 to R78; 41_bus_alu.md R112 for the ALU codes). -/
def Instr.placed : Instr → Placed
  | .bMdr => ⟨0, 4, 0⟩
  | .bPc => ⟨0, 4, 1⟩
  | .bMbr => ⟨0, 4, 2⟩
  | .bMbru => ⟨0, 4, 3⟩
  | .bSp => ⟨0, 4, 4⟩
  | .bLv => ⟨0, 4, 5⟩
  | .bCpp => ⟨0, 4, 6⟩
  | .bTos => ⟨0, 4, 7⟩
  | .bOpc => ⟨0, 4, 8⟩
  | .b9 => ⟨0, 4, 9⟩
  | .b10 => ⟨0, 4, 10⟩
  | .b11 => ⟨0, 4, 11⟩
  | .b12 => ⟨0, 4, 12⟩
  | .b13 => ⟨0, 4, 13⟩
  | .b14 => ⟨0, 4, 14⟩
  | .b15 => ⟨0, 4, 15⟩
  | .aluZero => ⟨16, 6, 16⟩
  | .aluOne => ⟨16, 6, 17⟩
  | .aluMinusOne => ⟨16, 6, 18⟩
  | .aluAnd => ⟨16, 6, 12⟩
  | .aluB => ⟨16, 6, 20⟩
  | .aluH => ⟨16, 6, 24⟩
  | .aluNotH => ⟨16, 6, 26⟩
  | .aluOr => ⟨16, 6, 28⟩
  | .aluNotB => ⟨16, 6, 44⟩
  | .aluBInc => ⟨16, 6, 53⟩
  | .aluBDec => ⟨16, 6, 54⟩
  | .aluHInc => ⟨16, 6, 57⟩
  | .aluNegH => ⟨16, 6, 59⟩
  | .aluAdd => ⟨16, 6, 60⟩
  | .aluAddInc => ⟨16, 6, 61⟩
  | .aluSub => ⟨16, 6, 63⟩
  | .alu0 => ⟨16, 6, 0⟩
  | .alu1 => ⟨16, 6, 1⟩
  | .alu2 => ⟨16, 6, 2⟩
  | .alu3 => ⟨16, 6, 3⟩
  | .alu4 => ⟨16, 6, 4⟩
  | .alu5 => ⟨16, 6, 5⟩
  | .alu6 => ⟨16, 6, 6⟩
  | .alu7 => ⟨16, 6, 7⟩
  | .alu8 => ⟨16, 6, 8⟩
  | .alu9 => ⟨16, 6, 9⟩
  | .alu10 => ⟨16, 6, 10⟩
  | .alu11 => ⟨16, 6, 11⟩
  | .alu13 => ⟨16, 6, 13⟩
  | .alu14 => ⟨16, 6, 14⟩
  | .alu15 => ⟨16, 6, 15⟩
  | .alu19 => ⟨16, 6, 19⟩
  | .alu21 => ⟨16, 6, 21⟩
  | .alu22 => ⟨16, 6, 22⟩
  | .alu23 => ⟨16, 6, 23⟩
  | .alu25 => ⟨16, 6, 25⟩
  | .alu27 => ⟨16, 6, 27⟩
  | .alu29 => ⟨16, 6, 29⟩
  | .alu30 => ⟨16, 6, 30⟩
  | .alu31 => ⟨16, 6, 31⟩
  | .alu32 => ⟨16, 6, 32⟩
  | .alu33 => ⟨16, 6, 33⟩
  | .alu34 => ⟨16, 6, 34⟩
  | .alu35 => ⟨16, 6, 35⟩
  | .alu36 => ⟨16, 6, 36⟩
  | .alu37 => ⟨16, 6, 37⟩
  | .alu38 => ⟨16, 6, 38⟩
  | .alu39 => ⟨16, 6, 39⟩
  | .alu40 => ⟨16, 6, 40⟩
  | .alu41 => ⟨16, 6, 41⟩
  | .alu42 => ⟨16, 6, 42⟩
  | .alu43 => ⟨16, 6, 43⟩
  | .alu45 => ⟨16, 6, 45⟩
  | .alu46 => ⟨16, 6, 46⟩
  | .alu47 => ⟨16, 6, 47⟩
  | .alu48 => ⟨16, 6, 48⟩
  | .alu49 => ⟨16, 6, 49⟩
  | .alu50 => ⟨16, 6, 50⟩
  | .alu51 => ⟨16, 6, 51⟩
  | .alu52 => ⟨16, 6, 52⟩
  | .alu55 => ⟨16, 6, 55⟩
  | .alu56 => ⟨16, 6, 56⟩
  | .alu58 => ⟨16, 6, 58⟩
  | .alu62 => ⟨16, 6, 62⟩
  | .shNone => ⟨22, 2, 0⟩
  | .shSll8 => ⟨22, 2, 1⟩
  | .shSrl1 => ⟨22, 2, 2⟩
  | .sh3 => ⟨22, 2, 3⟩
  | .cMar => ⟨7, 1, 1⟩
  | .cMdr => ⟨8, 1, 1⟩
  | .cPc => ⟨9, 1, 1⟩
  | .cSp => ⟨10, 1, 1⟩
  | .cLv => ⟨11, 1, 1⟩
  | .cCpp => ⟨12, 1, 1⟩
  | .cTos => ⟨13, 1, 1⟩
  | .cOpc => ⟨14, 1, 1⟩
  | .cH => ⟨15, 1, 1⟩
  | .cNone => ⟨7, 9, 0⟩
  | .memFetch => ⟨4, 1, 1⟩
  | .memRd => ⟨5, 1, 1⟩
  | .memWr => ⟨6, 1, 1⟩
  | .memNone => ⟨4, 3, 0⟩
  | .jamN => ⟨24, 1, 1⟩
  | .jamZ => ⟨25, 1, 1⟩
  | .jamMpc => ⟨26, 1, 1⟩
  | .jamNone => ⟨24, 3, 0⟩
  | .nextAddr a => ⟨27, 9, a.toNat⟩

/-- A row's match: its value in its place (R80). -/
def Instr.pattern (i : Instr) : MicroWord := BitVec.ofNat 36 (i.placed.value * 2 ^ i.placed.lo)

/-- A row's mask: the bits it fixes (R80). For `NEXT` these are the nine operand bits. -/
def Instr.mask (i : Instr) : MicroWord := BitVec.ofNat 36 ((2 ^ i.placed.width - 1) * 2 ^ i.placed.lo)

/-- A row matches a word when the word has the row's value in the row's place (R80). -/
def Instr.matchesWord (i : Instr) (w : MicroWord) : Bool := w &&& i.mask == i.pattern

/-! ### The decoder -/

/-- The B rows, by `b_select` (R76). -/
def bRows : List Instr :=
  [.bMdr, .bPc, .bMbr, .bMbru, .bSp, .bLv, .bCpp, .bTos, .bOpc, .b9, .b10, .b11, .b12, .b13, .b14, .b15]

def aluRows0 : List Instr :=
  [.alu0, .alu1, .alu2, .alu3, .alu4, .alu5, .alu6, .alu7,
   .alu8, .alu9, .alu10, .alu11, .aluAnd, .alu13, .alu14, .alu15]

def aluRows1 : List Instr :=
  [.aluZero, .aluOne, .aluMinusOne, .alu19, .aluB, .alu21, .alu22, .alu23,
   .aluH, .alu25, .aluNotH, .alu27, .aluOr, .alu29, .alu30, .alu31]

def aluRows2 : List Instr :=
  [.alu32, .alu33, .alu34, .alu35, .alu36, .alu37, .alu38, .alu39,
   .alu40, .alu41, .alu42, .alu43, .aluNotB, .alu45, .alu46, .alu47]

def aluRows3 : List Instr :=
  [.alu48, .alu49, .alu50, .alu51, .alu52, .aluBInc, .aluBDec, .alu55,
   .alu56, .aluHInc, .alu58, .aluNegH, .aluAdd, .aluAddInc, .alu62, .aluSub]
/-- The ALU rows, by `alu_op` (R77, R112). -/
def aluRows : List Instr := aluRows0 ++ aluRows1 ++ aluRows2 ++ aluRows3

/-- The SH rows, by `shift` (R75). -/
def shiftRows : List Instr := [.shNone, .shSll8, .shSrl1, .sh3]

/-- The C rows, by bit of `c_dest` (R73). -/
def destRows : List Instr := [.cMar, .cMdr, .cPc, .cSp, .cLv, .cCpp, .cTos, .cOpc, .cH]

/-- The MEM rows, by bit of `mem_ops` (R72). -/
def memRows : List Instr := [.memFetch, .memRd, .memWr]

/-- The JAM rows, by bit of `jump` (R74). -/
def jamRows : List Instr := [.jamN, .jamZ, .jamMpc]

/-- The row of a single-valued field's value. Every value of the field is in the range of its list, so the default is
never taken. -/
def valueRow (rows : List Instr) (v : Nat) (default : Instr) : Instr := rows.getD v default

/-- The rows of a bitmask field's set bits, from bit `k` on, in rising order of the bits. -/
def setBitRows {n : Nat} (v : BitVec n) : Nat → List Instr → List Instr
  | _, [] => []
  | k, i :: rest => if v.getLsbD k then i :: setBitRows v (k + 1) rest else setBitRows v (k + 1) rest

/-- The rows of a bitmask field: those of its set bits (R92), or the row of its empty mask. -/
def maskRows {n : Nat} (v : BitVec n) (rows : List Instr) (empty : Instr) : List Instr :=
  match setBitRows v 0 rows with
  | [] => [empty]
  | l => l

/-- The rows that a microinstruction's fields stand for, in the order of the cycle (R211). -/
def rowsOf (f : Fields) : List Instr :=
  [valueRow bRows f.bSelect.toNat .bMdr, valueRow aluRows f.aluOp.toNat .alu0, valueRow shiftRows f.shift.toNat .shNone]
    ++ maskRows f.cDest destRows .cNone ++ maskRows f.memOps memRows .memNone ++ maskRows f.jump jamRows .jamNone
    ++ [.nextAddr f.nextAddr]

/-- The decoder (R90, R91, R92): every 36-bit word decodes, to the list of the rows that match it, in the order of the
cycle. Words with invalid field values decode too; the unit that interprets the field detects them (R90). -/
def decode (w : MicroWord) : List Instr := rowsOf (fieldsOf w)

/-! ### The encoder -/

/-- The encoder (R82): the rows' patterns ORed together. -/
def encode : List Instr → MicroWord
  | [] => 0
  | i :: rest => i.pattern ||| encode rest

/-! ### Control-store records -/

/-- The little-endian value of a list of bytes (R52, R263; 92_eei_decisions.md D1, D20). -/
def leValue : List Byte → Nat
  | [] => 0
  | b :: rest => b.toNat + 256 * leValue rest

/-- Why a control-store record does not decode. -/
inductive DecodeReject where
  /-- Fewer than 8 bytes are left: a short read (R263, R264). -/
  | shortRecord
deriving DecidableEq, Repr

/-- One 8-byte record, read from the head of a list of bytes (R263): the container and the bytes left. -/
def readRecord (bytes : List Byte) : Except DecodeReject (Container × List Byte) :=
  match bytes with
  | b0 :: b1 :: b2 :: b3 :: b4 :: b5 :: b6 :: b7 :: rest =>
    .ok (BitVec.ofNat 64 (leValue [b0, b1, b2, b3, b4, b5, b6, b7]), rest)
  | _ => .error .shortRecord

/-- The decoder on bytes: a record's rows and the bytes left. Bits 63 to 36 of the container are ignored (R81). -/
def decodeBytes (bytes : List Byte) : Except DecodeReject (List Instr × List Byte) :=
  match readRecord bytes with
  | .ok (c, rest) => .ok (decode (c.extractLsb' 0 36), rest)
  | .error e => .error e

/-- The bytes of a record that holds a microinstruction word, bits 63 to 36 zero. -/
def recordOf (w : MicroWord) : List Byte :=
  (List.range 8).map (fun k => BitVec.ofNat 8 (w.toNat / 256 ^ k))

/-- The row that a table word names: the first row of the word's list whose pattern is not zero, and the first row of all
when every field is zero. A word is always several rows at once (R80), so this is a choice of ONE of them for the host's
question (DESIGN CHOICE, log 11); no step uses it. -/
def leadRow (l : List Instr) : Option Instr :=
  match l.find? (fun i => !(i.pattern == 0)) with
  | some i => some i
  | none => l.head?

/-- The row the decoder reads from a table word `w` of `nbits` bits, the bits above them zero (log 11). -/
def decodeTableWord (nbits w : Nat) : Option Instr :=
  leadRow (decode (BitVec.ofNat 36 (w % 2 ^ nbits)))

/-! ### The field-list notation -/

/-- Why a field list is no microinstruction (R83). -/
inductive AsmReject where
  /-- `ALU=` is required. -/
  | missingAlu
  /-- `NEXT=` is required. -/
  | missingNext
  /-- A field stands twice: two values of a single-valued field. -/
  | repeated (k : FieldKind)
  /-- The empty set `-` stands beside a member of the field. -/
  | emptyWithMember (k : FieldKind)
deriving DecidableEq, Repr

/-- The empty set stands beside a member of the same bitmask field. -/
def emptyWithMember (k : FieldKind) (empty : Instr) (l : List Instr) : Bool :=
  l.contains empty && l.any (fun i => decide (i.kind = k) && !(i == empty))

/-- Assembling a field list (R83): the order of the fields carries no meaning, `ALU=` and `NEXT=` are required, and the
other fields default to `B=MDR`, `SH=NONE`, `C=-`, `MEM=-`, `JAM=-`, whose patterns are zero. -/
def assemble (l : List Instr) : Except AsmReject MicroWord :=
  if countOf .aluOp l = 0 then .error .missingAlu
  else if countOf .nextAddr l = 0 then .error .missingNext
  else if 1 < countOf .bSelect l then .error (.repeated .bSelect)
  else if 1 < countOf .aluOp l then .error (.repeated .aluOp)
  else if 1 < countOf .shift l then .error (.repeated .shift)
  else if 1 < countOf .nextAddr l then .error (.repeated .nextAddr)
  else if emptyWithMember .cDest .cNone l then .error (.emptyWithMember .cDest)
  else if emptyWithMember .memOps .memNone l then .error (.emptyWithMember .memOps)
  else if emptyWithMember .jump .jamNone l then .error (.emptyWithMember .jump)
  else .ok (encode l)

/-- The pseudo-instructions (R85). -/
inductive Pseudo where
  | nop (a : CsAddr)
  | goto (a : CsAddr)
  | ifnz (a : CsAddr)
  | ifz (a : CsAddr)
  | dispatch (a : CsAddr)
deriving DecidableEq, Repr

/-- The one expansion of a pseudo-instruction (R85). -/
def Pseudo.expand : Pseudo → List Instr
  | .nop a => [.bMdr, .aluH, .cNone, .memNone, .jamNone, .nextAddr a]
  | .goto a => [.bMdr, .aluH, .cNone, .memNone, .jamNone, .nextAddr a]
  | .ifnz a => [.bMdr, .aluH, .jamN, .nextAddr a]
  | .ifz a => [.bMdr, .aluH, .jamZ, .nextAddr a]
  | .dispatch a => [.bMdr, .aluH, .jamMpc, .nextAddr a]

/-- A pseudo-instruction with extra fields: an extra field replaces the field of the same name (R85). -/
def Pseudo.expandWith (p : Pseudo) (extra : List Instr) : List Instr :=
  p.expand.filter (fun i => !extra.any (fun e => decide (e.kind = i.kind))) ++ extra

end Sys2Proof
end

