-- ==== Sys2Proof/Machine/AluMap.lean ====
section
/-! DEFINITION. The default `ALU_CODE_MAP` (41_bus_alu.md R112): 16 codes with a function, 48 with none. -/

namespace Sys2Proof.Machine

/-- Codes 0 to 15. -/
def aluCodes0 : List (Option AluFn) :=
  [none, none, none, none, none, none, none, none, none, none, none, none, some .and, none, none, none]

/-- Codes 16 to 31. -/
def aluCodes1 : List (Option AluFn) :=
  [some .zero, some .one, some .minusOne, none, some .b, none, none, none,
   some .h, none, some .notH, none, some .or, none, none, none]

/-- Codes 32 to 47. -/
def aluCodes2 : List (Option AluFn) :=
  [none, none, none, none, none, none, none, none, none, none, none, none, some .notB, none, none, none]

/-- Codes 48 to 63. -/
def aluCodes3 : List (Option AluFn) :=
  [none, none, none, none, none, some .bInc, some .bDec, none,
   none, some .hInc, none, some .negH, some .add, some .addInc, none, some .sub]

/-- The default `ALU_CODE_MAP` (R112; the spec's own decision D5). -/
def defaultAluCodeMap : AluCodeMap := ⟨(aluCodes0 ++ aluCodes1 ++ aluCodes2 ++ aluCodes3).toArray, by decide⟩

end Sys2Proof.Machine
end

