-- ==== Sys2Proof/Machine/State.lean ====
section
/-! DEFINITION. The state of the core (10_state.md R20 to R43), the reasons a step can stop, and the bare reset state. -/

namespace Sys2Proof.Machine

/-- The fault causes (60_exceptions.md R231). -/
inductive FaultCause where
  | invalidBSelect | invalidAluOp | invalidShift | fetchOutOfRange | readOutOfRange | writeOutOfRange
deriving DecidableEq, Repr

/-- A value of the FAULT register other than `none` (R38). -/
structure FaultRecord where
  cause : FaultCause
  /-- The invalid field value or the faulting byte offset. -/
  info  : Word
  /-- The control-store address of the microinstruction that faulted. -/
  mpc   : CsAddr
deriving DecidableEq, Repr

/-- Main memory's contents: the bytes that differ from what an unlisted address reads as, by strictly rising address
(`Memory.wf`, Machine/Ops.lean). -/
abbrev Memory := List Host.Cell

/-- The values that "exist only inside one cycle" (R43, R219): the MODEL's own fields, zero before and after every
cycle (DESIGN CHOICE, log 5, safe). -/
structure Buses where
  /-- The B-bus (R100). -/
  b : Word
  /-- The ALU result `r` (R111). -/
  r : Word
  /-- The C-bus (R133). -/
  c : Word
  /-- The contribution of the jump bits to the next address (R196). -/
  contrib : CsAddr
deriving DecidableEq, Repr

/-- No cycle in progress. -/
def Buses.idle : Buses := ⟨0, 0, 0, 0⟩

/-- The state of the core (R20, R21). -/
structure State where
  /-- Memory-address register (R23). -/
  mar : Word
  /-- Memory-data register (R24). -/
  mdr : Word
  /-- Program counter, a byte address (R25, R34). -/
  pc : Word
  /-- Byte buffer (R26). -/
  mbr : Byte
  /-- Stack pointer (R27). -/
  sp : Word
  /-- Local-variable pointer (R28). -/
  lv : Word
  /-- Constant-pool pointer (R29). -/
  cpp : Word
  /-- Top-of-stack register (R30). -/
  tos : Word
  /-- The "program register" (R31). -/
  opc : Word
  /-- Holding register, the ALU's other input (R32). -/
  h : Word
  /-- Micro-program counter (R35). -/
  mpc : CsAddr
  /-- Microinstruction register (R36). -/
  mir : MicroWord
  /-- The flag N: "result nonzero" (R37, R131). -/
  n : Bool
  /-- The flag Z: "result zero" (R37, R131). -/
  z : Bool
  /-- The fault register FAULT (R38). -/
  fault : Option FaultRecord
  /-- The control store CS (R39). -/
  cs : Vector Container 512
  /-- Main memory MEM (R40). -/
  mem : Memory
  /-- The machine's parameters (R44): no state of the core, carried here because the host fixes step's type (log 1). -/
  params : Params
  /-- The cycle in progress (log 5). -/
  bus : Buses
deriving DecidableEq, Repr

/-- Why a step stops with no next state. -/
inductive Fault where
  /-- Raised by `step` alone, on a state whose FAULT is not none: "a core whose FAULT is not none has no cycle"
  (45_cycle_driver.md R213). Safe: the spec says the core takes no step there. No row's meaning raises it. -/
  | stopped
deriving DecidableEq, Repr

/-- Why an instruction has no meaning. -/
inductive Refusal where
  /-- Raised by `exec`'s arm of a row that has no meaning yet; no arm does. Safe. -/
  | notModelled (mnemonic : String)
deriving DecidableEq, Repr

/-- The parameters of the bare reset state: the defaults of R10, and a `MEM_SIZE` the spec leaves open
(DESIGN CHOICE 2048, log 2, unsafe for a statement about `State.reset` alone). -/
def defaultParams : Params where
  strict := true
  memSize := 2048
  aluCodeMap := defaultAluCodeMap

/-- The machine after reset with nothing placed in it (R41, R260): every register and flag 0, FAULT none. No
control-store image and no program image is given: every entry of CS is 0 (log 7) and no byte of memory is listed
(log 3). `boot` (Machine/Boot.lean) is the reset with the two images and any parameters. -/
def State.reset : State where
  mar := 0
  mdr := 0
  pc := 0
  mbr := 0
  sp := 0
  lv := 0
  cpp := 0
  tos := 0
  opc := 0
  h := 0
  mpc := 0
  mir := 0
  n := false
  z := false
  fault := none
  cs := Vector.replicate 512 0
  mem := []
  params := defaultParams
  bus := Buses.idle

end Sys2Proof.Machine
end

