-- ==== Sys2Proof/Machine/Ops.lean ====
section
/-! DEFINITION. The named operations over memory, registers, the buses and the fault register. -/

namespace Sys2Proof.Machine

/-! ### Memory contents -/

/-- What an address that memory does not list reads as (DESIGN CHOICE 0, log 3, unsafe for a statement about
`State.reset` alone; `boot` lists the bytes of any `MEM_INIT`). -/
def unlisted (_ : Nat) : Byte := 0

/-- The byte at an address. -/
def Memory.readByte : Memory → Nat → Byte
  | [], a => unlisted a
  | (k, v) :: rest, a => if k = a then v else Memory.readByte rest a

/-- The cell of an address and a value in front of a memory: no cell for the value an unlisted address reads as. -/
def Memory.cons (a : Nat) (v : Byte) (m : Memory) : Memory := if v = unlisted a then m else (a, v) :: m

/-- Writing one byte, in the canonical form. -/
def Memory.writeByte : Memory → Nat → Byte → Memory
  | [], a, v => Memory.cons a v []
  | (k, x) :: rest, a, v =>
    if a < k then Memory.cons a v ((k, x) :: rest)
    else if a = k then Memory.cons a v rest
    else (k, x) :: Memory.writeByte rest a v

/-- The word at a byte offset, little-endian (20_memory.md R52). -/
def Memory.readWord (m : Memory) (a : Nat) : Word :=
  (Memory.readByte m a).setWidth 32 ||| ((Memory.readByte m (a + 1)).setWidth 32 <<< 8) |||
    ((Memory.readByte m (a + 2)).setWidth 32 <<< 16) ||| ((Memory.readByte m (a + 3)).setWidth 32 <<< 24)

/-- Byte `k` of a word: bits 8k+7 to 8k (R55). -/
def wordByte (v : Word) (k : Nat) : Byte := v.extractLsb' (8 * k) 8

/-- Writing a word at a byte offset, little-endian (R55). -/
def Memory.writeWord (m : Memory) (a : Nat) (v : Word) : Memory :=
  let m := Memory.writeByte m a (wordByte v 0)
  let m := Memory.writeByte m (a + 1) (wordByte v 1)
  let m := Memory.writeByte m (a + 2) (wordByte v 2)
  Memory.writeByte m (a + 3) (wordByte v 3)

/-- The memory that holds `f a` at each of its first `n` addresses, in the canonical form. -/
def Memory.ofBytes (f : Nat → Byte) (n : Nat) : Memory :=
  (List.range n).filterMap (fun a => if f a = unlisted a then none else some (a, f a))

/-- The addresses rise strictly from `lo` on and no cell holds what an unlisted address reads as. -/
def Memory.wfFrom : Nat → Memory → Bool
  | _, [] => true
  | lo, (k, v) :: rest => decide (lo ≤ k) && !(v == unlisted k) && Memory.wfFrom (k + 1) rest

/-- The canonical form of memory: strictly rising addresses, no cell equal to what an unlisted address reads as. -/
def Memory.wf (m : Memory) : Bool := Memory.wfFrom 0 m

/-- Every listed address lies in the memory (R40: addresses 0 to `MEM_SIZE` - 1). -/
def Memory.within (size : Nat) (m : Memory) : Bool := m.all (fun c => decide (c.1 < size))

/-! ### Parameters and the control store -/

/-- `ALU_CODE_MAP` of a code (R77, R111). -/
def aluFnOf (p : Params) (code : BitVec 6) : Option AluFn := p.aluCodeMap[code.toNat]'code.isLt

/-- The control-store entry at an address: every address names one (R35, R39). -/
def csEntry (s : State) (a : CsAddr) : Container := s.cs[a.toNat]'a.isLt

/-- The significant bits of a container (R39, R212). -/
def significant (c : Container) : MicroWord := c.extractLsb' 0 36

/-! ### The fault register -/

/-- The code of a cause (60_exceptions.md R231). -/
def FaultCause.code : FaultCause → Nat
  | .invalidBSelect => 1
  | .invalidAluOp => 2
  | .invalidShift => 3
  | .fetchOutOfRange => 4
  | .readOutOfRange => 5
  | .writeOutOfRange => 6

/-- The code that the FAULT register shows: 0 for no fault (R231). -/
def faultCode (s : State) : Nat :=
  match s.fault with
  | none => 0
  | some f => f.cause.code

/-- Raising a fault (R232): FAULT takes the cause, the information and the address of the microinstruction. The cycle
then ends with nothing else kept: `abortCycle`. -/
def raiseFault (cause : FaultCause) (info : Word) (s : State) : State :=
  { s with fault := some { cause := cause, info := info, mpc := s.mpc } }

/-- The end of a faulting cycle (R214, R232, R239): the state of the cycle's start, with FAULT alone changed. There is no
handler and no return (R240, R241): only a reset (`boot`) clears FAULT. -/
def abortCycle (start working : State) : State := { start with fault := working.fault }

/-! ### Buses -/

/-- Driving the B-bus (R100). -/
def State.driveB (s : State) (v : Word) : State := { s with bus := { s.bus with b := v } }

/-- Driving the C-bus (R133). -/
def State.driveC (s : State) (v : Word) : State := { s with bus := { s.bus with c := v } }

/-- Setting the jump contribution (R196). -/
def State.setContrib (s : State) (v : CsAddr) : State := { s with bus := { s.bus with contrib := v } }

/-! ### Memory accesses -/

/-- All `n` bytes from a byte offset lie below `MEM_SIZE` (R59). -/
abbrev inRange (s : State) (addr n : Nat) : Prop := addr + n ≤ s.params.memSize

/-- The byte offset of a word address: an exact product, never wrapped (R57). -/
def byteOffset (mar : Word) : Nat := mar.toNat * 4

/-- The information that an out-of-range access records: the byte offset modulo 2^32 (R54, R178). -/
def offsetInfo (addr : Nat) : Word := BitVec.ofNat 32 addr

/-- `MemRead(addr, 1)` (R54); none where the access is out of range. -/
def memReadByte (s : State) (addr : Nat) : Option Byte :=
  if inRange s addr 1 then some (Memory.readByte s.mem addr) else none

/-- `MemRead(addr, 4)` (R54); none where the access is out of range. -/
def memReadWord (s : State) (addr : Nat) : Option Word :=
  if inRange s addr 4 then some (Memory.readWord s.mem addr) else none

/-- `MemWrite(addr, 4, v)` (R55): the memory after it; none where the access is out of range. -/
def memWriteWord (s : State) (addr : Nat) (v : Word) : Option Memory :=
  if inRange s addr 4 then some (Memory.writeWord s.mem addr v) else none

end Sys2Proof.Machine
end

