-- ==== Sys2Proof/Machine/Flags.lean ====
section
/-! DEFINITION. The flags (41_bus_alu.md R131): computed from the ALU result, before the shift, whatever `c_dest` holds. -/

namespace Sys2Proof.Machine

/-- N means "result nonzero" (R131). -/
def flagN (r : Word) : Bool := r != 0

/-- Z means "result zero" (R131). -/
def flagZ (r : Word) : Bool := r == 0

/-- The ALU's outputs: the result and the flags computed from it (R131). -/
def State.setResult (s : State) (r : Word) : State :=
  { s with bus := { s.bus with r := r }, n := flagN r, z := flagZ r }

end Sys2Proof.Machine
end

