-- ==== Sys2Proof/Machine/Operands.lean ====
section
/-! DEFINITION. The operand forms of the B-bus (41_bus_alu.md R100 to R110; 00_scope.md R12). -/

namespace Sys2Proof.Machine

/-- Sign extension of a byte: bit 7 fills bits 8 to 31 (R12, R103). -/
def sext32 (b : Byte) : Word := b.signExtend 32

/-- Zero extension of a byte: 0 fills bits 8 to 31 (R12, R104). -/
def zext32 (b : Byte) : Word := b.setWidth 32

/-- An invalid B source (R110, R233): the fault INVALID_B_SELECT in strict mode, all ones in permissive mode. -/
def invalidB (bSelect : BitVec 4) (s : State) : Host.Outcome State Fault Refusal :=
  if s.params.strict then .next (raiseFault .invalidBSelect (bSelect.setWidth 32) s)
  else .next (s.driveB 0xFFFFFFFF)

end Sys2Proof.Machine
end

