-- ==== Sys2Proof/Machine/Alu.lean ====
section
/-! DEFINITION. The ALU rows (41_bus_alu.md R111 to R131): one meaning for each of the 64 codes.

A row stands for a CODE (its pattern fixes alu_op); the function is `ALU_CODE_MAP` of the code (R77, R111), so the names of
the rows with a function are right under the default map of R112 and every row is right under every map
(DESIGN CHOICE, log 6, safe). -/

namespace Sys2Proof.Machine

/-- The result of an ALU function of `H` (h) and the B-bus (b), modulo 2^32 (R111, R113, R114 to R129). -/
def aluEval (f : AluFn) (h b : Word) : Word :=
  match f with
  | .zero => 0
  | .one => 1
  | .minusOne => 0xFFFFFFFF
  | .and => h &&& b
  | .b => b
  | .h => h
  | .notH => ~~~h
  | .or => h ||| b
  | .notB => ~~~b
  | .bInc => b + 1
  | .bDec => b - 1
  | .hInc => h + 1
  | .negH => -h
  | .add => h + b
  | .addInc => h + b + 1
  | .sub => b - h

/-- The ALU with the code `code` (R111): the mapped function's result and its flags (R131); for a code that the map
leaves out, the fault INVALID_ALU_OP in strict mode and the result 0 in permissive mode (R130, R234). -/
def aluStep (code : BitVec 6) (s : State) : Host.Outcome State Fault Refusal :=
  match aluFnOf s.params code with
  | some f => .next (s.setResult (aluEval f s.h s.bus.b))
  | none =>
    if s.params.strict then .next (raiseFault .invalidAluOp (code.setWidth 32) s)
    else .next (s.setResult 0)

/-- `ALU=ZERO` (R114): code 16 (R112). -/
def execAluZero (s : State) : Host.Outcome State Fault Refusal := aluStep 16#6 s

/-- `ALU=ONE` (R115): code 17 (R112). -/
def execAluOne (s : State) : Host.Outcome State Fault Refusal := aluStep 17#6 s

/-- `ALU=MINUS_ONE` (R116): code 18 (R112). -/
def execAluMinusOne (s : State) : Host.Outcome State Fault Refusal := aluStep 18#6 s

/-- `ALU=AND` (R117): code 12 (R112). -/
def execAluAnd (s : State) : Host.Outcome State Fault Refusal := aluStep 12#6 s

/-- `ALU=B` (R118): code 20 (R112). -/
def execAluB (s : State) : Host.Outcome State Fault Refusal := aluStep 20#6 s

/-- `ALU=H` (R119): code 24 (R112). -/
def execAluH (s : State) : Host.Outcome State Fault Refusal := aluStep 24#6 s

/-- `ALU=NOT_H` (R120): code 26 (R112). -/
def execAluNotH (s : State) : Host.Outcome State Fault Refusal := aluStep 26#6 s

/-- `ALU=OR` (R121): code 28 (R112). -/
def execAluOr (s : State) : Host.Outcome State Fault Refusal := aluStep 28#6 s

/-- `ALU=NOT_B` (R122): code 44 (R112). -/
def execAluNotB (s : State) : Host.Outcome State Fault Refusal := aluStep 44#6 s

/-- `ALU=B_INC` (R123): code 53 (R112). -/
def execAluBInc (s : State) : Host.Outcome State Fault Refusal := aluStep 53#6 s

/-- `ALU=B_DEC` (R124): code 54 (R112). -/
def execAluBDec (s : State) : Host.Outcome State Fault Refusal := aluStep 54#6 s

/-- `ALU=H_INC` (R125): code 57 (R112). -/
def execAluHInc (s : State) : Host.Outcome State Fault Refusal := aluStep 57#6 s

/-- `ALU=NEG_H` (R126): code 59 (R112). -/
def execAluNegH (s : State) : Host.Outcome State Fault Refusal := aluStep 59#6 s

/-- `ALU=ADD` (R127): code 60 (R112). -/
def execAluAdd (s : State) : Host.Outcome State Fault Refusal := aluStep 60#6 s

/-- `ALU=ADD_INC` (R128): code 61 (R112). -/
def execAluAddInc (s : State) : Host.Outcome State Fault Refusal := aluStep 61#6 s

/-- `ALU=SUB` (R129): code 63 (R112). -/
def execAluSub (s : State) : Host.Outcome State Fault Refusal := aluStep 63#6 s

/-- `ALU=#0` (R130): code 0, undefined under the default map. -/
def execAlu0 (s : State) : Host.Outcome State Fault Refusal := aluStep 0#6 s

/-- `ALU=#1` (R130): code 1, undefined under the default map. -/
def execAlu1 (s : State) : Host.Outcome State Fault Refusal := aluStep 1#6 s

/-- `ALU=#2` (R130): code 2, undefined under the default map. -/
def execAlu2 (s : State) : Host.Outcome State Fault Refusal := aluStep 2#6 s

/-- `ALU=#3` (R130): code 3, undefined under the default map. -/
def execAlu3 (s : State) : Host.Outcome State Fault Refusal := aluStep 3#6 s

/-- `ALU=#4` (R130): code 4, undefined under the default map. -/
def execAlu4 (s : State) : Host.Outcome State Fault Refusal := aluStep 4#6 s

/-- `ALU=#5` (R130): code 5, undefined under the default map. -/
def execAlu5 (s : State) : Host.Outcome State Fault Refusal := aluStep 5#6 s

/-- `ALU=#6` (R130): code 6, undefined under the default map. -/
def execAlu6 (s : State) : Host.Outcome State Fault Refusal := aluStep 6#6 s

/-- `ALU=#7` (R130): code 7, undefined under the default map. -/
def execAlu7 (s : State) : Host.Outcome State Fault Refusal := aluStep 7#6 s

/-- `ALU=#8` (R130): code 8, undefined under the default map. -/
def execAlu8 (s : State) : Host.Outcome State Fault Refusal := aluStep 8#6 s

/-- `ALU=#9` (R130): code 9, undefined under the default map. -/
def execAlu9 (s : State) : Host.Outcome State Fault Refusal := aluStep 9#6 s

/-- `ALU=#10` (R130): code 10, undefined under the default map. -/
def execAlu10 (s : State) : Host.Outcome State Fault Refusal := aluStep 10#6 s

/-- `ALU=#11` (R130): code 11, undefined under the default map. -/
def execAlu11 (s : State) : Host.Outcome State Fault Refusal := aluStep 11#6 s

/-- `ALU=#13` (R130): code 13, undefined under the default map. -/
def execAlu13 (s : State) : Host.Outcome State Fault Refusal := aluStep 13#6 s

/-- `ALU=#14` (R130): code 14, undefined under the default map. -/
def execAlu14 (s : State) : Host.Outcome State Fault Refusal := aluStep 14#6 s

/-- `ALU=#15` (R130): code 15, undefined under the default map. -/
def execAlu15 (s : State) : Host.Outcome State Fault Refusal := aluStep 15#6 s

/-- `ALU=#19` (R130): code 19, undefined under the default map. -/
def execAlu19 (s : State) : Host.Outcome State Fault Refusal := aluStep 19#6 s

/-- `ALU=#21` (R130): code 21, undefined under the default map. -/
def execAlu21 (s : State) : Host.Outcome State Fault Refusal := aluStep 21#6 s

/-- `ALU=#22` (R130): code 22, undefined under the default map. -/
def execAlu22 (s : State) : Host.Outcome State Fault Refusal := aluStep 22#6 s

/-- `ALU=#23` (R130): code 23, undefined under the default map. -/
def execAlu23 (s : State) : Host.Outcome State Fault Refusal := aluStep 23#6 s

/-- `ALU=#25` (R130): code 25, undefined under the default map. -/
def execAlu25 (s : State) : Host.Outcome State Fault Refusal := aluStep 25#6 s

/-- `ALU=#27` (R130): code 27, undefined under the default map. -/
def execAlu27 (s : State) : Host.Outcome State Fault Refusal := aluStep 27#6 s

/-- `ALU=#29` (R130): code 29, undefined under the default map. -/
def execAlu29 (s : State) : Host.Outcome State Fault Refusal := aluStep 29#6 s

/-- `ALU=#30` (R130): code 30, undefined under the default map. -/
def execAlu30 (s : State) : Host.Outcome State Fault Refusal := aluStep 30#6 s

/-- `ALU=#31` (R130): code 31, undefined under the default map. -/
def execAlu31 (s : State) : Host.Outcome State Fault Refusal := aluStep 31#6 s

/-- `ALU=#32` (R130): code 32, undefined under the default map. -/
def execAlu32 (s : State) : Host.Outcome State Fault Refusal := aluStep 32#6 s

/-- `ALU=#33` (R130): code 33, undefined under the default map. -/
def execAlu33 (s : State) : Host.Outcome State Fault Refusal := aluStep 33#6 s

/-- `ALU=#34` (R130): code 34, undefined under the default map. -/
def execAlu34 (s : State) : Host.Outcome State Fault Refusal := aluStep 34#6 s

/-- `ALU=#35` (R130): code 35, undefined under the default map. -/
def execAlu35 (s : State) : Host.Outcome State Fault Refusal := aluStep 35#6 s

/-- `ALU=#36` (R130): code 36, undefined under the default map. -/
def execAlu36 (s : State) : Host.Outcome State Fault Refusal := aluStep 36#6 s

/-- `ALU=#37` (R130): code 37, undefined under the default map. -/
def execAlu37 (s : State) : Host.Outcome State Fault Refusal := aluStep 37#6 s

/-- `ALU=#38` (R130): code 38, undefined under the default map. -/
def execAlu38 (s : State) : Host.Outcome State Fault Refusal := aluStep 38#6 s

/-- `ALU=#39` (R130): code 39, undefined under the default map. -/
def execAlu39 (s : State) : Host.Outcome State Fault Refusal := aluStep 39#6 s

/-- `ALU=#40` (R130): code 40, undefined under the default map. -/
def execAlu40 (s : State) : Host.Outcome State Fault Refusal := aluStep 40#6 s

/-- `ALU=#41` (R130): code 41, undefined under the default map. -/
def execAlu41 (s : State) : Host.Outcome State Fault Refusal := aluStep 41#6 s

/-- `ALU=#42` (R130): code 42, undefined under the default map. -/
def execAlu42 (s : State) : Host.Outcome State Fault Refusal := aluStep 42#6 s

/-- `ALU=#43` (R130): code 43, undefined under the default map. -/
def execAlu43 (s : State) : Host.Outcome State Fault Refusal := aluStep 43#6 s

/-- `ALU=#45` (R130): code 45, undefined under the default map. -/
def execAlu45 (s : State) : Host.Outcome State Fault Refusal := aluStep 45#6 s

/-- `ALU=#46` (R130): code 46, undefined under the default map. -/
def execAlu46 (s : State) : Host.Outcome State Fault Refusal := aluStep 46#6 s

/-- `ALU=#47` (R130): code 47, undefined under the default map. -/
def execAlu47 (s : State) : Host.Outcome State Fault Refusal := aluStep 47#6 s

/-- `ALU=#48` (R130): code 48, undefined under the default map. -/
def execAlu48 (s : State) : Host.Outcome State Fault Refusal := aluStep 48#6 s

/-- `ALU=#49` (R130): code 49, undefined under the default map. -/
def execAlu49 (s : State) : Host.Outcome State Fault Refusal := aluStep 49#6 s

/-- `ALU=#50` (R130): code 50, undefined under the default map. -/
def execAlu50 (s : State) : Host.Outcome State Fault Refusal := aluStep 50#6 s

/-- `ALU=#51` (R130): code 51, undefined under the default map. -/
def execAlu51 (s : State) : Host.Outcome State Fault Refusal := aluStep 51#6 s

/-- `ALU=#52` (R130): code 52, undefined under the default map. -/
def execAlu52 (s : State) : Host.Outcome State Fault Refusal := aluStep 52#6 s

/-- `ALU=#55` (R130): code 55, undefined under the default map. -/
def execAlu55 (s : State) : Host.Outcome State Fault Refusal := aluStep 55#6 s

/-- `ALU=#56` (R130): code 56, undefined under the default map. -/
def execAlu56 (s : State) : Host.Outcome State Fault Refusal := aluStep 56#6 s

/-- `ALU=#58` (R130): code 58, undefined under the default map. -/
def execAlu58 (s : State) : Host.Outcome State Fault Refusal := aluStep 58#6 s

/-- `ALU=#62` (R130): code 62, undefined under the default map. -/
def execAlu62 (s : State) : Host.Outcome State Fault Refusal := aluStep 62#6 s

end Sys2Proof.Machine
end

