-- ==== Sys2Proof/Machine/BBus.lean ====
section
/-! DEFINITION. The B-bus rows (41_bus_alu.md R100 to R110). A B row only drives the B-bus: it writes no register and no
flag. It runs first in the cycle, so the register has its value of the cycle's start (R100, R271). -/

namespace Sys2Proof.Machine

/-- `B=MDR` (R101). -/
def execBMdr (s : State) : Host.Outcome State Fault Refusal := .next (s.driveB s.mdr)

/-- `B=PC` (R102). -/
def execBPc (s : State) : Host.Outcome State Fault Refusal := .next (s.driveB s.pc)

/-- `B=MBR` (R103). -/
def execBMbr (s : State) : Host.Outcome State Fault Refusal := .next (s.driveB (sext32 s.mbr))

/-- `B=MBRU` (R104). -/
def execBMbru (s : State) : Host.Outcome State Fault Refusal := .next (s.driveB (zext32 s.mbr))

/-- `B=SP` (R105). -/
def execBSp (s : State) : Host.Outcome State Fault Refusal := .next (s.driveB s.sp)

/-- `B=LV` (R106). -/
def execBLv (s : State) : Host.Outcome State Fault Refusal := .next (s.driveB s.lv)

/-- `B=CPP` (R107). -/
def execBCpp (s : State) : Host.Outcome State Fault Refusal := .next (s.driveB s.cpp)

/-- `B=TOS` (R108). -/
def execBTos (s : State) : Host.Outcome State Fault Refusal := .next (s.driveB s.tos)

/-- `B=OPC` (R109). -/
def execBOpc (s : State) : Host.Outcome State Fault Refusal := .next (s.driveB s.opc)

/-- `B=#9` (R110). -/
def execB9 (s : State) : Host.Outcome State Fault Refusal := invalidB 9#4 s

/-- `B=#10` (R110). -/
def execB10 (s : State) : Host.Outcome State Fault Refusal := invalidB 10#4 s

/-- `B=#11` (R110). -/
def execB11 (s : State) : Host.Outcome State Fault Refusal := invalidB 11#4 s

/-- `B=#12` (R110). -/
def execB12 (s : State) : Host.Outcome State Fault Refusal := invalidB 12#4 s

/-- `B=#13` (R110). -/
def execB13 (s : State) : Host.Outcome State Fault Refusal := invalidB 13#4 s

/-- `B=#14` (R110). -/
def execB14 (s : State) : Host.Outcome State Fault Refusal := invalidB 14#4 s

/-- `B=#15` (R110). -/
def execB15 (s : State) : Host.Outcome State Fault Refusal := invalidB 15#4 s

end Sys2Proof.Machine
end

