-- ==== Sys2Proof/Machine/CBus.lean ====
section
/-! DEFINITION. The C-bus rows (42_cbus.md R150 to R162). Each copies the C-bus value into one register; the cycle applies
every row whose bit is set, so several destinations receive the same value (R162). -/

namespace Sys2Proof.Machine

/-- `C=MAR` (R152). -/
def execCMar (s : State) : Host.Outcome State Fault Refusal := .next { s with mar := s.bus.c }

/-- `C=MDR` (R153). -/
def execCMdr (s : State) : Host.Outcome State Fault Refusal := .next { s with mdr := s.bus.c }

/-- `C=PC` (R154). -/
def execCPc (s : State) : Host.Outcome State Fault Refusal := .next { s with pc := s.bus.c }

/-- `C=SP` (R155). -/
def execCSp (s : State) : Host.Outcome State Fault Refusal := .next { s with sp := s.bus.c }

/-- `C=LV` (R156). -/
def execCLv (s : State) : Host.Outcome State Fault Refusal := .next { s with lv := s.bus.c }

/-- `C=CPP` (R157). -/
def execCCpp (s : State) : Host.Outcome State Fault Refusal := .next { s with cpp := s.bus.c }

/-- `C=TOS` (R158). -/
def execCTos (s : State) : Host.Outcome State Fault Refusal := .next { s with tos := s.bus.c }

/-- `C=OPC` (R159). -/
def execCOpc (s : State) : Host.Outcome State Fault Refusal := .next { s with opc := s.bus.c }

/-- `C=H` (R160). -/
def execCH (s : State) : Host.Outcome State Fault Refusal := .next { s with h := s.bus.c }

/-- `C=-` (R161): the empty mask writes no register. -/
def execCNone (s : State) : Host.Outcome State Fault Refusal := .next s

end Sys2Proof.Machine
end

