-- ==== Sys2Proof/Machine/MemUnit.lean ====
section
/-! DEFINITION. The MEM rows (43_memory_unit.md R170 to R180). They run after the C rows, so they see the PC, MAR and MDR of
this cycle (R171), and in the order fetch, read, write (R170). -/

namespace Sys2Proof.Machine

/-- `MEM=FETCH` (R172, R177). -/
def execMemFetch (s : State) : Host.Outcome State Fault Refusal :=
  match memReadByte s s.pc.toNat with
  | some v => .next { s with mbr := v }
  | none => .next (raiseFault .fetchOutOfRange (offsetInfo s.pc.toNat) s)

/-- `MEM=RD` (R174, R178). -/
def execMemRd (s : State) : Host.Outcome State Fault Refusal :=
  match memReadWord s (byteOffset s.mar) with
  | some v => .next { s with mdr := v }
  | none => .next (raiseFault .readOutOfRange (offsetInfo (byteOffset s.mar)) s)

/-- `MEM=WR` (R176, R178). -/
def execMemWr (s : State) : Host.Outcome State Fault Refusal :=
  match memWriteWord s (byteOffset s.mar) s.mdr with
  | some m => .next { s with mem := m }
  | none => .next (raiseFault .writeOutOfRange (offsetInfo (byteOffset s.mar)) s)

/-- `MEM=-` (R180): no access. -/
def execMemNone (s : State) : Host.Outcome State Fault Refusal := .next s

end Sys2Proof.Machine
end

