-- ==== Sys2Proof/Machine/NextAddress.lean ====
section
/-! DEFINITION. The JAM rows and the NEXT row (44_next_address.md R190 to R197). They run last in the cycle, so they see this
cycle's flags and the byte buffer after this cycle's fetch (R190). -/

namespace Sys2Proof.Machine

/-- A flag in bit 8 of an address (R191, R192). -/
def flagBit8 (f : Bool) : CsAddr := (BitVec.ofBool f).setWidth 9 <<< 8

/-- `JAM=JAMN` (R191). -/
def execJamN (s : State) : Host.Outcome State Fault Refusal := .next (s.setContrib (s.bus.contrib ||| flagBit8 s.n))

/-- `JAM=JAMZ` (R192). -/
def execJamZ (s : State) : Host.Outcome State Fault Refusal := .next (s.setContrib (s.bus.contrib ||| flagBit8 s.z))

/-- `JAM=JMPC` (R193): the byte buffer in bits 7 to 0. -/
def execJamMpc (s : State) : Host.Outcome State Fault Refusal := .next (s.setContrib (s.bus.contrib ||| s.mbr.setWidth 9))

/-- `JAM=-` (R194): no contribution. -/
def execJamNone (s : State) : Host.Outcome State Fault Refusal := .next (s.setContrib 0)

/-- `NEXT=<addr>` (R195, R196): the contribution ORed into the address. -/
def execNextAddr (addr : CsAddr) (s : State) : Host.Outcome State Fault Refusal :=
  .next { s with mpc := addr ||| s.bus.contrib }

end Sys2Proof.Machine
end

