-- ==== Sys2Proof/Machine/Shift.lean ====
section
/-! DEFINITION. The SH rows (41_bus_alu.md R133 to R137): the C-bus value from the ALU result. The flags stay as the ALU
set them. -/

namespace Sys2Proof.Machine

/-- Left by 8, zero fill (R135). -/
def shiftLeft8 (r : Word) : Word := r <<< 8

/-- Right by 1, logical (R136). -/
def shiftRight1 (r : Word) : Word := r >>> 1

/-- `SH=NONE` (R134). -/
def execShNone (s : State) : Host.Outcome State Fault Refusal := .next (s.driveC s.bus.r)

/-- `SH=SLL8` (R135). -/
def execShSll8 (s : State) : Host.Outcome State Fault Refusal := .next (s.driveC (shiftLeft8 s.bus.r))

/-- `SH=SRL1` (R136). -/
def execShSrl1 (s : State) : Host.Outcome State Fault Refusal := .next (s.driveC (shiftRight1 s.bus.r))

/-- `SH=#3` (R137, R235): the fault INVALID_SHIFT in strict mode, the identity in permissive mode. -/
def execSh3 (s : State) : Host.Outcome State Fault Refusal :=
  if s.params.strict then .next (raiseFault .invalidShift 3 s)
  else .next (s.driveC s.bus.r)

end Sys2Proof.Machine
end

