-- ==== Sys2Proof/Machine/Dispatch.lean ====
section
/-! DEFINITION. exec: the meaning of each row of the opcode table, one arm per constructor of Instr. -/

namespace Sys2Proof.Machine

def exec (i : Instr) (s : State) : Host.Outcome State Fault Refusal :=
  match i with
  -- b_select
  | .bMdr => Sys2Proof.Machine.execBMdr s
  | .bPc => Sys2Proof.Machine.execBPc s
  | .bMbr => Sys2Proof.Machine.execBMbr s
  | .bMbru => Sys2Proof.Machine.execBMbru s
  | .bSp => Sys2Proof.Machine.execBSp s
  | .bLv => Sys2Proof.Machine.execBLv s
  | .bCpp => Sys2Proof.Machine.execBCpp s
  | .bTos => Sys2Proof.Machine.execBTos s
  | .bOpc => Sys2Proof.Machine.execBOpc s
  | .b9 => Sys2Proof.Machine.execB9 s
  | .b10 => Sys2Proof.Machine.execB10 s
  | .b11 => Sys2Proof.Machine.execB11 s
  | .b12 => Sys2Proof.Machine.execB12 s
  | .b13 => Sys2Proof.Machine.execB13 s
  | .b14 => Sys2Proof.Machine.execB14 s
  | .b15 => Sys2Proof.Machine.execB15 s
  -- alu_op
  | .aluZero => Sys2Proof.Machine.execAluZero s
  | .aluOne => Sys2Proof.Machine.execAluOne s
  | .aluMinusOne => Sys2Proof.Machine.execAluMinusOne s
  | .aluAnd => Sys2Proof.Machine.execAluAnd s
  | .aluB => Sys2Proof.Machine.execAluB s
  | .aluH => Sys2Proof.Machine.execAluH s
  | .aluNotH => Sys2Proof.Machine.execAluNotH s
  | .aluOr => Sys2Proof.Machine.execAluOr s
  | .aluNotB => Sys2Proof.Machine.execAluNotB s
  | .aluBInc => Sys2Proof.Machine.execAluBInc s
  | .aluBDec => Sys2Proof.Machine.execAluBDec s
  | .aluHInc => Sys2Proof.Machine.execAluHInc s
  | .aluNegH => Sys2Proof.Machine.execAluNegH s
  | .aluAdd => Sys2Proof.Machine.execAluAdd s
  | .aluAddInc => Sys2Proof.Machine.execAluAddInc s
  | .aluSub => Sys2Proof.Machine.execAluSub s
  | .alu0 => Sys2Proof.Machine.execAlu0 s
  | .alu1 => Sys2Proof.Machine.execAlu1 s
  | .alu2 => Sys2Proof.Machine.execAlu2 s
  | .alu3 => Sys2Proof.Machine.execAlu3 s
  | .alu4 => Sys2Proof.Machine.execAlu4 s
  | .alu5 => Sys2Proof.Machine.execAlu5 s
  | .alu6 => Sys2Proof.Machine.execAlu6 s
  | .alu7 => Sys2Proof.Machine.execAlu7 s
  | .alu8 => Sys2Proof.Machine.execAlu8 s
  | .alu9 => Sys2Proof.Machine.execAlu9 s
  | .alu10 => Sys2Proof.Machine.execAlu10 s
  | .alu11 => Sys2Proof.Machine.execAlu11 s
  | .alu13 => Sys2Proof.Machine.execAlu13 s
  | .alu14 => Sys2Proof.Machine.execAlu14 s
  | .alu15 => Sys2Proof.Machine.execAlu15 s
  | .alu19 => Sys2Proof.Machine.execAlu19 s
  | .alu21 => Sys2Proof.Machine.execAlu21 s
  | .alu22 => Sys2Proof.Machine.execAlu22 s
  | .alu23 => Sys2Proof.Machine.execAlu23 s
  | .alu25 => Sys2Proof.Machine.execAlu25 s
  | .alu27 => Sys2Proof.Machine.execAlu27 s
  | .alu29 => Sys2Proof.Machine.execAlu29 s
  | .alu30 => Sys2Proof.Machine.execAlu30 s
  | .alu31 => Sys2Proof.Machine.execAlu31 s
  | .alu32 => Sys2Proof.Machine.execAlu32 s
  | .alu33 => Sys2Proof.Machine.execAlu33 s
  | .alu34 => Sys2Proof.Machine.execAlu34 s
  | .alu35 => Sys2Proof.Machine.execAlu35 s
  | .alu36 => Sys2Proof.Machine.execAlu36 s
  | .alu37 => Sys2Proof.Machine.execAlu37 s
  | .alu38 => Sys2Proof.Machine.execAlu38 s
  | .alu39 => Sys2Proof.Machine.execAlu39 s
  | .alu40 => Sys2Proof.Machine.execAlu40 s
  | .alu41 => Sys2Proof.Machine.execAlu41 s
  | .alu42 => Sys2Proof.Machine.execAlu42 s
  | .alu43 => Sys2Proof.Machine.execAlu43 s
  | .alu45 => Sys2Proof.Machine.execAlu45 s
  | .alu46 => Sys2Proof.Machine.execAlu46 s
  | .alu47 => Sys2Proof.Machine.execAlu47 s
  | .alu48 => Sys2Proof.Machine.execAlu48 s
  | .alu49 => Sys2Proof.Machine.execAlu49 s
  | .alu50 => Sys2Proof.Machine.execAlu50 s
  | .alu51 => Sys2Proof.Machine.execAlu51 s
  | .alu52 => Sys2Proof.Machine.execAlu52 s
  | .alu55 => Sys2Proof.Machine.execAlu55 s
  | .alu56 => Sys2Proof.Machine.execAlu56 s
  | .alu58 => Sys2Proof.Machine.execAlu58 s
  | .alu62 => Sys2Proof.Machine.execAlu62 s
  -- shift
  | .shNone => Sys2Proof.Machine.execShNone s
  | .shSll8 => Sys2Proof.Machine.execShSll8 s
  | .shSrl1 => Sys2Proof.Machine.execShSrl1 s
  | .sh3 => Sys2Proof.Machine.execSh3 s
  -- c_dest
  | .cMar => Sys2Proof.Machine.execCMar s
  | .cMdr => Sys2Proof.Machine.execCMdr s
  | .cPc => Sys2Proof.Machine.execCPc s
  | .cSp => Sys2Proof.Machine.execCSp s
  | .cLv => Sys2Proof.Machine.execCLv s
  | .cCpp => Sys2Proof.Machine.execCCpp s
  | .cTos => Sys2Proof.Machine.execCTos s
  | .cOpc => Sys2Proof.Machine.execCOpc s
  | .cH => Sys2Proof.Machine.execCH s
  | .cNone => Sys2Proof.Machine.execCNone s
  -- mem_ops
  | .memFetch => Sys2Proof.Machine.execMemFetch s
  | .memRd => Sys2Proof.Machine.execMemRd s
  | .memWr => Sys2Proof.Machine.execMemWr s
  | .memNone => Sys2Proof.Machine.execMemNone s
  -- jump
  | .jamN => Sys2Proof.Machine.execJamN s
  | .jamZ => Sys2Proof.Machine.execJamZ s
  | .jamMpc => Sys2Proof.Machine.execJamMpc s
  | .jamNone => Sys2Proof.Machine.execJamNone s
  -- next_addr
  | .nextAddr addr => Sys2Proof.Machine.execNextAddr addr s

end Sys2Proof.Machine
end

