-- ==== Sys2Proof/Machine/Cycle.lean ====
section
/-! DEFINITION. One cycle (45_cycle_driver.md R211 to R214): fetch, decode, run the rows in order, keep all or nothing. -/

namespace Sys2Proof.Machine

/-- The microinstruction that the cycle fetches: bits 35 to 0 of `CS[MPC]` (R212). -/
def fetchMir (s : State) : MicroWord := significant (csEntry s s.mpc)

/-- The working state at the start of the cycle: MIR loaded (R212), nothing on the buses (R43). -/
def beginCycle (s : State) : State := { s with mir := fetchMir s, bus := Buses.idle }

/-- The end of the cycle: the buses' values do not outlive it (R43, R219). -/
def endCycle (s : State) : State := { s with bus := Buses.idle }

/-- The rows, one after the other (R14, R211), up to the first fault (R238). -/
def runRows : List Instr → State → Host.Outcome State Fault Refusal
  | [], s => .next s
  | i :: rest, s =>
    match exec i s with
    | .next t => if t.fault.isSome then .next t else runRows rest t
    | .fault r => .fault r
    | .refused r => .refused r

/-- All or nothing (R214): after a fault the start state with FAULT set, otherwise the working state. -/
def commit (start working : State) : State :=
  if working.fault.isSome then abortCycle start working else endCycle working

/-- One cycle of a core whose FAULT is none (R211). -/
def cycle (s : State) : Host.Outcome State Fault Refusal :=
  match runRows (decode (fetchMir s)) (beginCycle s) with
  | .next t => .next (commit s t)
  | .fault r => .fault r
  | .refused r => .refused r

/-- `s` with the word `w` of `nbits` bits in the control-store entry that the next cycle fetches, bits above `nbits`
zero (log 12). -/
def placeFetchWord (s : State) (nbits w : Nat) : State :=
  { s with cs := s.cs.set s.mpc.toNat (BitVec.ofNat 64 (w % 2 ^ nbits)) s.mpc.isLt }

end Sys2Proof.Machine
end

