-- ==== Sys2Proof/Machine/Step.lean ====
section
/-! DEFINITION. step: one cycle, and the stop of a faulted core (45_cycle_driver.md R211, R213). -/

namespace Sys2Proof.Machine

/-- One step of the machine: one cycle (R211). A core whose FAULT is not none has no cycle (R213). -/
def step (s : State) : Host.Outcome State Fault Refusal :=
  match s.fault with
  | some _ => .fault .stopped
  | none => cycle s

/-- `s` with the table word `w` stored where step fetches its next microinstruction: `CS[MPC]` (log 7, log 12). -/
def State.withFetchWord (s : State) (nbits w : Nat) : State := placeFetchWord s nbits w

end Sys2Proof.Machine
end

