-- ==== Sys2Proof/Machine/Boot.lean ====
section
/-! DEFINITION. Reset with the boot-time load (70_reset_and_hazards.md R260 to R268): the two images, in the form of the state
they leave. -/

namespace Sys2Proof.Machine

/-- Why a load fails (R264, R265, R267). "A failed load leaves no core state." Which failure is named when several hold
is the model's choice (log 13), safe: no state results in any of them. -/
inductive LoadError where
  /-- There is no control-store file (R264). -/
  | romMissing
  /-- The control-store file has fewer than 4096 bytes (R264). -/
  | romShort
  /-- There is no program image (R267). -/
  | imageMissing
  /-- The image has fewer than 4 bytes, or fewer than 4 + length (R265). -/
  | imageShort
  /-- length < 20 (R265). -/
  | lengthTooSmall
  /-- 1005 + length > MEM_SIZE (R265). -/
  | lengthTooLarge
deriving DecidableEq, Repr

/-- Record `i` of the control-store file: the 64-bit little-endian value of bytes 8i to 8i+7 (R263). -/
def romRecord (rom : List Byte) (i : Nat) : Container := BitVec.ofNat 64 (leValue ((rom.drop (8 * i)).take 8))

/-- The control store that the file holds (R263). -/
def romImage (rom : List Byte) : Vector Container 512 := Vector.ofFn (fun i : Fin 512 => romRecord rom i.val)

/-- The image's length field: bytes 0 to 3, little-endian (R265). -/
def imageLength (image : List Byte) : Nat := leValue (image.take 4)

/-- The byte that memory holds after the load (R63, R266): the initialization region, the program region, and `MEM_INIT`
everywhere else. -/
def loadedByte (memInit : Nat → Byte) (image : List Byte) (a : Nat) : Byte :=
  if a < initRegionSize then image.getD (4 + a) 0
  else if programStart ≤ a ∧ a < programStart + (imageLength image - initRegionSize) then
    image.getD (24 + (a - programStart)) 0
  else memInit a

/-- What is wrong with a program image, if anything (R265). -/
def imageProblem (memSize : Nat) (image : List Byte) : Option LoadError :=
  if image.length < 4 then some .imageShort
  else if imageLength image < initRegionSize then some .lengthTooSmall
  else if memSize < 1005 + imageLength image then some .lengthTooLarge
  else if image.length < 4 + imageLength image then some .imageShort
  else none

/-- The state that a load of good images leaves (R41, R268): CS and MEM loaded, every register and flag 0, FAULT none. -/
def bootState (p : Params) (memInit : Nat → Byte) (rom image : List Byte) : State :=
  { State.reset with
    cs := romImage rom
    mem := Memory.ofBytes (loadedByte memInit image) p.memSize
    params := p }

/-- Reset with the boot-time load (R260, R263 to R268), for every value of the parameters (R269). A missing file is
`none`; bytes beyond 4096, and beyond 4 + length, are ignored (R264, R265). -/
def boot (p : Params) (memInit : Nat → Byte) (rom image : Option (List Byte)) : Except LoadError State :=
  match rom with
  | none => .error .romMissing
  | some rom =>
    if rom.length < 4096 then .error .romShort
    else
      match image with
      | none => .error .imageMissing
      | some image =>
        match imageProblem p.memSize image with
        | some e => .error e
        | none => .ok (bootState p memInit rom image)

end Sys2Proof.Machine
end

