-- ==== Sys2Proof/Machine/Driver.lean ====
section
/-! DEFINITION. What the host does to the core (45_cycle_driver.md R215 to R218; 70_reset_and_hazards.md R269): it resets,
lets a cycle run, stops between cycles, and observes the whole state (State is plain data, R217). -/

namespace Sys2Proof.Machine

/-- `HALT`'s default: never (R10, R215). -/
def haltNever (_ : State) : Bool := false

/-- A run of at most `k` cycles (R215): it ends at a faulted state, or before the cycle at a state where `HALT` holds.
The host's own stop (R218) is the choice of `k`. -/
def runUntil (halt : State → Bool) : Nat → State → State
  | 0, s => s
  | k + 1, s =>
    if halt s then s
    else
      match step s with
      | .next t => runUntil halt k t
      | .fault _ => s
      | .refused _ => s

/-- What the host may do (R269). -/
inductive HostAction where
  /-- Reset with the images and the parameters; `none` is a missing file. -/
  | reset (p : Params) (memInit : Nat → Byte) (rom image : Option (List Byte))
  /-- Permission for one cycle (the `run` port of R222). -/
  | run
  /-- No permission: a stopped core keeps its state (R218). -/
  | hold

/-- The core after a host action; `none` is no core state: "A failed load leaves no core state" (R267). A run gives "one
cycle, or nothing if faulted" (R269). -/
def hostAct : HostAction → Option State → Option State
  | .reset p memInit rom image, _ =>
    match boot p memInit rom image with
    | .ok t => some t
    | .error _ => none
  | .run, some s =>
    match step s with
    | .next t => some t
    | .fault _ => some s
    | .refused _ => some s
  | .run, none => none
  | .hold, s => s

end Sys2Proof.Machine
end

