-- ==== Sys2Proof/Machine/Ports.lean ====
section
/-! DEFINITION. The block interface (45_cycle_driver.md R222): the transactions of one cycle, read off the state. It adds no
step and no state (92_eei_decisions.md D18). -/

namespace Sys2Proof.Machine

/-- A memory transaction of a cycle (R222): a byte read at PC, a word read or a word write at `MAR*4`. -/
inductive Transaction where
  | fetch (addr : BitVec 32) (data : BitVec 8)
  | read (addr : BitVec 34) (data : BitVec 32)
  | write (addr : BitVec 34) (data : BitVec 32)
deriving DecidableEq, Repr

/-- The transaction that a row issues on a working state. "An address outside the memory is never issued" (R222). -/
def issued (i : Instr) (s : State) : List Transaction :=
  match i with
  | .memFetch =>
    match memReadByte s s.pc.toNat with
    | some v => [.fetch s.pc v]
    | none => []
  | .memRd =>
    match memReadWord s (byteOffset s.mar) with
    | some v => [.read (BitVec.ofNat 34 (byteOffset s.mar)) v]
    | none => []
  | .memWr =>
    match memWriteWord s (byteOffset s.mar) s.mdr with
    | some _ => [.write (BitVec.ofNat 34 (byteOffset s.mar)) s.mdr]
    | none => []
  | _ => []

/-- The transactions of a list of rows, in the order they are issued (R222), up to the first fault (log 14). -/
def transactions : List Instr → State → List Transaction
  | [], _ => []
  | i :: rest, s =>
    issued i s ++
      match exec i s with
      | .next t => if t.fault.isSome then [] else transactions rest t
      | .fault _ => []
      | .refused _ => []

/-- The ports of one cycle (R222): `cs_addr`, `cs_data`, the memory transactions in order, and the FAULT register that the
cycle leaves. -/
structure CycleIO where
  csAddr : BitVec 9
  csData : BitVec 36
  memory : List Transaction
  fault  : Option FaultRecord
deriving DecidableEq, Repr

/-- The ports of the next cycle; none for a core that has no cycle (R213). -/
def cycleIO (s : State) : Option CycleIO :=
  match step s with
  | .next t =>
    some
      { csAddr := s.mpc
        csData := fetchMir s
        memory := transactions (decode (fetchMir s)) (beginCycle s)
        fault := t.fault }
  | .fault _ => none
  | .refused _ => none

end Sys2Proof.Machine
end

