-- ==== Sys2Proof/Machine/Reference.lean ====
section
/-! DEFINITION. The cycle of 45_cycle_driver.md R211 in closed form: what each part of the state is after a cycle, and which
fault a cycle raises, written from the fields of the microinstruction without the rows. The statements compare `step`
with it; `step` does not use it. -/

namespace Sys2Proof.Machine

/-- The fields of the microinstruction at MPC (R91, R212). -/
def fieldsAt (s : State) : Fields := fieldsOf (significant (csEntry s s.mpc))

/-- The B-bus value of a valid source (R100). -/
def bSource (s : State) (bSelect : BitVec 4) : Option Word :=
  match bSelect.toNat with
  | 0 => some s.mdr
  | 1 => some s.pc
  | 2 => some (sext32 s.mbr)
  | 3 => some (zext32 s.mbr)
  | 4 => some s.sp
  | 5 => some s.lv
  | 6 => some s.cpp
  | 7 => some s.tos
  | 8 => some s.opc
  | _ => none

/-- The B-bus value, with the permissive substitute (R100, R110). -/
def bValue (s : State) : Word := (bSource s (fieldsAt s).bSelect).getD 0xFFFFFFFF

/-- An ALU function's result as arithmetic on natural numbers modulo 2^32 and bitwise logic (R111 to R129). -/
def aluResult (f : AluFn) (h b : Word) : Word :=
  match f with
  | .zero => BitVec.ofNat 32 0
  | .one => BitVec.ofNat 32 1
  | .minusOne => BitVec.ofNat 32 0xFFFFFFFF
  | .and => BitVec.ofNat 32 (h.toNat &&& b.toNat)
  | .b => b
  | .h => h
  | .notH => BitVec.ofNat 32 (0xFFFFFFFF - h.toNat)
  | .or => BitVec.ofNat 32 (h.toNat ||| b.toNat)
  | .notB => BitVec.ofNat 32 (0xFFFFFFFF - b.toNat)
  | .bInc => BitVec.ofNat 32 (b.toNat + 1)
  | .bDec => BitVec.ofNat 32 (b.toNat + 0xFFFFFFFF)
  | .hInc => BitVec.ofNat 32 (h.toNat + 1)
  | .negH => BitVec.ofNat 32 (2 ^ 32 - h.toNat)
  | .add => BitVec.ofNat 32 (h.toNat + b.toNat)
  | .addInc => BitVec.ofNat 32 (h.toNat + b.toNat + 1)
  | .sub => BitVec.ofNat 32 (b.toNat + (2 ^ 32 - h.toNat))

/-- The ALU result of the cycle, with the permissive substitute (R111, R130). -/
def rValue (s : State) : Word :=
  match aluFnOf s.params (fieldsAt s).aluOp with
  | some f => aluResult f s.h (bValue s)
  | none => 0

/-- The shifter (R133), with the permissive substitute for mode 3 (R137). -/
def shifted (shift : BitVec 2) (r : Word) : Word :=
  match shift.toNat with
  | 1 => BitVec.ofNat 32 (r.toNat * 2 ^ 8)
  | 2 => BitVec.ofNat 32 (r.toNat / 2)
  | _ => r

/-- The C-bus value of the cycle (R133). -/
def cValue (s : State) : Word := shifted (fieldsAt s).shift (rValue s)

/-- Bit `k` of `c_dest` is set: the C-bus writes destination `k` (R73, R151). -/
def selectsDest (s : State) (k : Nat) : Bool := (fieldsAt s).cDest.getLsbD k

/-- `FETCH` is set (R72). -/
def wantsFetch (s : State) : Bool := (fieldsAt s).memOps.getLsbD 0

/-- `RD` is set (R72). -/
def wantsRead (s : State) : Bool := (fieldsAt s).memOps.getLsbD 1

/-- `WR` is set (R72). -/
def wantsWrite (s : State) : Bool := (fieldsAt s).memOps.getLsbD 2

/-- A C-bus register after the distributor (R150). -/
def distributed (s : State) (k : Nat) (old : Word) : Word := if selectsDest s k then cValue s else old

/-- PC after the distributor: the fetch's byte offset (R171, R172). -/
def pcAfter (s : State) : Word := distributed s 2 s.pc

/-- MAR after the distributor: the word address of a read or write (R171, R174, R176). -/
def marAfter (s : State) : Word := distributed s 0 s.mar

/-- MBR after the cycle (R172): a fetch runs before the write, so it sees the memory of the cycle's start (R180). -/
def mbrAfter (s : State) : Byte := if wantsFetch s then Memory.readByte s.mem (pcAfter s).toNat else s.mbr

/-- MDR after the cycle (R174, R175): the read overwrites the C-bus's value. -/
def mdrAfter (s : State) : Word :=
  if wantsRead s then Memory.readWord s.mem (byteOffset (marAfter s)) else distributed s 1 s.mdr

/-- Memory after the cycle (R176): the write stores the MDR that the C-bus or the read left. -/
def memAfter (s : State) : Memory :=
  if wantsWrite s then Memory.writeWord s.mem (byteOffset (marAfter s)) (mdrAfter s) else s.mem

/-- The next control-store address (R196). -/
def resolve (nextAddr : CsAddr) (n z : Bool) (mbr : Byte) (jump : BitVec 3) : CsAddr :=
  nextAddr ||| (if jump.getLsbD 0 && n then 0x100 else 0) ||| (if jump.getLsbD 1 && z then 0x100 else 0)
    ||| (if jump.getLsbD 2 then mbr.setWidth 9 else 0)

/-- The state that a cycle without a fault leaves (R211, R221). -/
def cycleResult (s : State) : State where
  mar := marAfter s
  mdr := mdrAfter s
  pc := pcAfter s
  mbr := mbrAfter s
  sp := distributed s 3 s.sp
  lv := distributed s 4 s.lv
  cpp := distributed s 5 s.cpp
  tos := distributed s 6 s.tos
  opc := distributed s 7 s.opc
  h := distributed s 8 s.h
  mpc := resolve (fieldsAt s).nextAddr (decide (rValue s ≠ 0)) (decide (rValue s = 0)) (mbrAfter s) (fieldsAt s).jump
  mir := significant (csEntry s s.mpc)
  n := decide (rValue s ≠ 0)
  z := decide (rValue s = 0)
  fault := s.fault
  cs := s.cs
  mem := memAfter s
  params := s.params
  bus := Buses.idle

/-- One row of the fault table (60_exceptions.md R231): whether its condition holds, its cause and its information. -/
structure FaultRow where
  holds : Bool
  cause : FaultCause
  info  : Word
deriving DecidableEq, Repr

/-- The fault table (R231), for the microinstruction at MPC, in the order of the causes' priority (R238). -/
def faultTable (s : State) : List FaultRow :=
  [⟨s.params.strict && decide (9 ≤ (fieldsAt s).bSelect.toNat), .invalidBSelect, (fieldsAt s).bSelect.setWidth 32⟩,
   ⟨s.params.strict && (aluFnOf s.params (fieldsAt s).aluOp).isNone, .invalidAluOp, (fieldsAt s).aluOp.setWidth 32⟩,
   ⟨s.params.strict && decide ((fieldsAt s).shift = 3), .invalidShift, 3⟩,
   ⟨wantsFetch s && decide (s.params.memSize ≤ (pcAfter s).toNat), .fetchOutOfRange, pcAfter s⟩,
   ⟨wantsRead s && decide (s.params.memSize < (marAfter s).toNat * 4 + 4), .readOutOfRange,
      BitVec.ofNat 32 ((marAfter s).toNat * 4)⟩,
   ⟨wantsWrite s && decide (s.params.memSize < (marAfter s).toNat * 4 + 4), .writeOutOfRange,
      BitVec.ofNat 32 ((marAfter s).toNat * 4)⟩]

/-- The fault that the cycle records (R232, R238): the first of the table whose condition holds. -/
def firstFault (s : State) : Option FaultRecord :=
  match (faultTable s).find? (fun r => r.holds) with
  | some r => some { cause := r.cause, info := r.info, mpc := s.mpc }
  | none => none

/-- One step, in closed form (R211, R213, R214). -/
def referenceStep (s : State) : Host.Outcome State Fault Refusal :=
  match s.fault with
  | some _ => .fault .stopped
  | none =>
    match firstFault s with
    | some f => .next { s with fault := some f }
    | none => .next (cycleResult s)

end Sys2Proof.Machine
end

