-- ==== Sys2Proof/Safety.lean ====
section
/-! DEFINITION. What counts as a safe state and a safe cycle, in the words the statements use. -/

namespace Sys2Proof.Machine

/-- A cycle from `s` that keeps its writes: it answers `t` and raises no fault (R214). -/
abbrev Ran (s t : State) : Prop := step s = .next t ∧ t.fault = none

/-- A cycle from `s` that raises a fault: it answers `t`, whose FAULT is set (R214, R232). -/
abbrev Faulted (s t : State) : Prop := step s = .next t ∧ t.fault ≠ none

/-- The invariant of the states between cycles: memory in its canonical form and inside `MEM_SIZE` (R40), the parameters'
constraint (R10), nothing on the buses (R43), and the flags never both 1 (R37, R41). -/
abbrev Inv (s : State) : Prop :=
  Memory.wf s.mem = true ∧ Memory.within s.params.memSize s.mem = true ∧ s.params.wf ∧ s.bus = Buses.idle
    ∧ ¬ (s.n = true ∧ s.z = true)

/-- The state with the ALU's outputs replaced: the result `r` and the flags computed from it (R131). -/
abbrev withResult (s : State) (r : Word) : State :=
  { s with bus := { s.bus with r := r }, n := decide (r ≠ 0), z := decide (r = 0) }

/-- The state with the B-bus replaced (R100). -/
abbrev withB (s : State) (v : Word) : State := { s with bus := { s.bus with b := v } }

/-- The state with the C-bus replaced (R133). -/
abbrev withC (s : State) (v : Word) : State := { s with bus := { s.bus with c := v } }

/-- The state with the jump contribution replaced (R196). -/
abbrev withContrib (s : State) (v : CsAddr) : State := { s with bus := { s.bus with contrib := v } }

/-- The state with FAULT replaced by a record of the microinstruction at MPC (R232). -/
abbrev withFault (s : State) (cause : FaultCause) (info : Word) : State :=
  { s with fault := some { cause := cause, info := info, mpc := s.mpc } }

/-- The state after a cycle that passes H through the ALU, writes no register and goes on at `a` (R85). -/
abbrev afterTestOfH (s : State) (a : CsAddr) : State :=
  { s with mir := fetchMir s, n := decide (s.h ≠ 0), z := decide (s.h = 0), mpc := a, bus := Buses.idle }

end Sys2Proof.Machine
end

