-- ==== Sys2Proof/Certificates/Slice0/Obligations.lean ====
section
/-! DEFINITION. The statements for the provers. Each docstring names the rules of spec/ that its statement formalises, and
then, after "Rests on", the spec's own decisions (92_eei_decisions.md) and the log entries (notes/assumptions/<n>.md) that
it depends on. Every statement about a row speaks of the model's form of it: a constructor per table row (log 4), with the
values that exist inside one cycle in `State.bus` (log 5). -/

open Sys2Proof Sys2Proof.Machine

/-! ### Encoding -/

/-- R93, R82, R90: encoding the rows that a word decodes to gives the word back, and the rows are well formed, for
each of the 2^36 words. Rests on the model's own log 4. -/
def Obligations.EncodingDecodedRowsGivesTheWord : Prop :=
  ∀ w : MicroWord, encode (decode w) = w ∧ WellFormed (decode w) = true

/-- R93, R82: decoding the word of a well-formed list of rows gives the rows back. Rests on the model's own log 4. -/
def Obligations.DecodingEncodedRowsGivesTheRows : Prop :=
  ∀ l : List Instr, WellFormed l = true → decode (encode l) = l

/-- R93: the round trip between words and tuples of field values, both ways. -/
def Obligations.FieldsRoundTrip : Prop :=
  (∀ w : MicroWord, wordOf (fieldsOf w) = w) ∧ ∀ f : Fields, fieldsOf (wordOf f) = f

/-- R71, R91: each field is the number that its bits spell. -/
def Obligations.FieldsAreTheirBits : Prop :=
  ∀ w : MicroWord,
    (fieldsOf w).bSelect.toNat = w.toNat % 2 ^ 4 ∧ (fieldsOf w).memOps.toNat = w.toNat / 2 ^ 4 % 2 ^ 3 ∧
    (fieldsOf w).cDest.toNat = w.toNat / 2 ^ 7 % 2 ^ 9 ∧ (fieldsOf w).aluOp.toNat = w.toNat / 2 ^ 16 % 2 ^ 6 ∧
    (fieldsOf w).shift.toNat = w.toNat / 2 ^ 22 % 2 ^ 2 ∧ (fieldsOf w).jump.toNat = w.toNat / 2 ^ 24 % 2 ^ 3 ∧
    (fieldsOf w).nextAddr.toNat = w.toNat / 2 ^ 27 % 2 ^ 9

/-- R80: the decoder gives exactly the rows whose pattern matches the word. Rests on the spec's own decisions D5 (from
general knowledge) and D7 and on the model's own logs 4, 6 and 10. -/
def Obligations.DecodedRowsAreTheMatchingRows : Prop :=
  ∀ (w : MicroWord) (i : Instr), i ∈ decode w ↔ i.matchesWord w = true

/-- R86 and 95_test_vectors.md 2.1: words of the spec and the rows they stand for. Rests on the spec's own decisions
D5 (from general knowledge) and D7 and on the model's own logs 4, 6 and 10. -/
def Obligations.SpecWordsDecode : Prop :=
  decode 0x0083504A4 = [.bSp, .aluBInc, .shNone, .cMar, .cSp, .memRd, .jamNone, .nextAddr 1] ∧
  decode 0x029180000 = [.bMdr, .aluH, .shNone, .cNone, .memNone, .jamN, .nextAddr 5] ∧
  decode 0x010350211 = [.bPc, .aluBInc, .shNone, .cPc, .memFetch, .jamNone, .nextAddr 2] ∧
  decode 0x082140007 = [.bTos, .aluB, .shNone, .cNone, .memNone, .jamZ, .nextAddr 16] ∧
  decode 0xFF800000F = [.b15, .alu0, .shNone, .cNone, .memNone, .jamNone, .nextAddr 511] ∧
  decode 0xFFFFFFFFF = [.b15, .aluSub, .sh3, .cMar, .cMdr, .cPc, .cSp, .cLv, .cCpp, .cTos, .cOpc, .cH,
    .memFetch, .memRd, .memWr, .jamN, .jamZ, .jamMpc, .nextAddr 511]

/-- R83: "The order of the fields in the text and the order inside a list carry no meaning." A rearranged field list
that assembles, assembles to the same word. Rests on the spec's own decision D23 and on the model's own log 15. -/
def Obligations.FieldListOrderCarriesNoMeaning : Prop :=
  ∀ (l l' : List Instr) (w : MicroWord), l.Perm l' → assemble l = .ok w → assemble l' = .ok w

/-- R83: the word of a field list decodes to the fields it gives and to the defaults of the fields it leaves out. What
the assembler rejects is the model's choice. Rests on the spec's own decision D23 and on the model's own logs 4 and
15. -/
def Obligations.AssembledFieldListDecodesToItsFields : Prop :=
  ∀ (l : List Instr) (w : MicroWord), assemble l = .ok w →
    ∀ i : Instr, i ∈ decode w ↔
      i ∈ l ∨ (i ∈ [Instr.bMdr, .shNone, .cNone, .memNone, .jamNone] ∧ ∀ j ∈ l, j.kind ≠ i.kind)

/-! ### The rows of the B-bus -/

/-- R106 to R109, and the B values of R101 to R105: the rows of `b_select` 0 to 8, in that order, each drive the B-bus
with their source and change nothing else; the byte buffer arrives sign-extended for B=MBR and zero-extended for
B=MBRU. -/
def Obligations.BSourceRowsDriveTheBBus : Prop :=
  (List.range 9).map (fun k => valueRow bRows k .bMdr) =
      [.bMdr, .bPc, .bMbr, .bMbru, .bSp, .bLv, .bCpp, .bTos, .bOpc] ∧
  ∀ s : State,
    exec .bMdr s = .next (withB s s.mdr) ∧ exec .bPc s = .next (withB s s.pc) ∧
    exec .bMbr s = .next (withB s (BitVec.ofNat 32 (s.mbr.toNat + if s.mbr.getLsbD 7 then 0xFFFFFF00 else 0))) ∧
    exec .bMbru s = .next (withB s (BitVec.ofNat 32 s.mbr.toNat)) ∧
    exec .bSp s = .next (withB s s.sp) ∧ exec .bLv s = .next (withB s s.lv) ∧
    exec .bCpp s = .next (withB s s.cpp) ∧ exec .bTos s = .next (withB s s.tos) ∧
    exec .bOpc s = .next (withB s s.opc)

/-- R110, R233: an invalid B row drives all ones in permissive mode and raises INVALID_B_SELECT with its code in
strict mode, whatever the other rows of the word are. Rests on the spec's own decisions D4, D13 and D15 and on the
model's own logs 8 and 10. -/
def Obligations.InvalidBRows : Prop :=
  ∀ p ∈ [(Instr.b9, 9), (Instr.b10, 10), (Instr.b11, 11), (Instr.b12, 12), (Instr.b13, 13), (Instr.b14, 14),
      (Instr.b15, 15)],
    ∀ s : State,
      (s.params.strict = false → exec p.1 s = .next (withB s 0xFFFFFFFF)) ∧
      (s.params.strict = true → exec p.1 s = .next (withFault s .invalidBSelect (BitVec.ofNat 32 p.2)))

/-! ### The rows of the ALU -/

/-- R111, R131: the ALU row of each of the 64 codes, where `ALU_CODE_MAP` gives the code a function: the result is the
function of H and the B-bus, the flags are those of the result, and nothing else changes. The rows are ALU=ZERO, ONE,
MINUS_ONE, AND, B, H, NOT_H, OR, NOT_B, B_INC, B_DEC, H_INC, NEG_H, ADD, ADD_INC, SUB and the 48 rows ALU=#k. Rests on
the spec's own decision D6 and on the model's own logs 6 and 10. -/
def Obligations.AluRowsApplyTheMappedFunction : Prop :=
  ∀ (k : BitVec 6) (f : AluFn) (s : State), aluFnOf s.params k = some f →
    exec (valueRow aluRows k.toNat .alu0) s = .next (withResult s (aluResult f s.h s.bus.b))

/-- R130, R234: the ALU row of a code that `ALU_CODE_MAP` leaves out: result 0 in permissive mode, INVALID_ALU_OP with
the code in strict mode. Rests on the spec's own decisions D4 and D13 and on the model's own logs 6, 8 and 10. -/
def Obligations.AluRowsWithoutAFunction : Prop :=
  ∀ (k : BitVec 6) (s : State), aluFnOf s.params k = none →
    (s.params.strict = false →
      exec (valueRow aluRows k.toNat .alu0) s = .next { s with bus := { s.bus with r := 0 }, n := false, z := true }) ∧
    (s.params.strict = true →
      exec (valueRow aluRows k.toNat .alu0) s = .next (withFault s .invalidAluOp (BitVec.ofNat 32 k.toNat)))

/-- R112: the default `ALU_CODE_MAP`: 16 codes with their functions, the rows that have those codes, and no function
for every other code. Rests on the spec's own decisions D5 (from general knowledge) and D6 and on the model's own logs
6 and 10. -/
def Obligations.DefaultAluCodeMap : Prop :=
  (∀ p ∈ [(12#6, AluFn.and, Instr.aluAnd), (16#6, .zero, .aluZero), (17#6, .one, .aluOne),
      (18#6, .minusOne, .aluMinusOne), (20#6, .b, .aluB), (24#6, .h, .aluH), (26#6, .notH, .aluNotH),
      (28#6, .or, .aluOr), (44#6, .notB, .aluNotB), (53#6, .bInc, .aluBInc), (54#6, .bDec, .aluBDec),
      (57#6, .hInc, .aluHInc), (59#6, .negH, .aluNegH), (60#6, .add, .aluAdd), (61#6, .addInc, .aluAddInc),
      (63#6, .sub, .aluSub)],
    aluFnOf defaultParams p.1 = some p.2.1 ∧ p.2.2 = valueRow aluRows p.1.toNat .alu0) ∧
  (∀ k ∉ [12#6, 16#6, 17#6, 18#6, 20#6, 24#6, 26#6, 28#6, 44#6, 53#6, 54#6, 57#6, 59#6, 60#6, 61#6, 63#6],
    aluFnOf defaultParams k = none)

/-- R115 to R122, and ZERO (R114): the constant, pass and bitwise functions under the default map, with their default
codes (R112) and their flags. Rests on the spec's own decisions D5 (from general knowledge) and D6 and on the model's
own logs 6 and 10. -/
def Obligations.NamedAluRowsConstantsAndLogic : Prop :=
  [16, 17, 18, 12, 20, 24, 26, 28, 44].map (fun k => valueRow aluRows k .alu0) =
      [.aluZero, .aluOne, .aluMinusOne, .aluAnd, .aluB, .aluH, .aluNotH, .aluOr, .aluNotB] ∧
  ∀ s : State, s.params.aluCodeMap = defaultAluCodeMap →
    exec .aluZero s = .next (withResult s 0) ∧ exec .aluOne s = .next (withResult s 1) ∧
    exec .aluMinusOne s = .next (withResult s 0xFFFFFFFF) ∧ exec .aluAnd s = .next (withResult s (s.h &&& s.bus.b)) ∧
    exec .aluB s = .next (withResult s s.bus.b) ∧ exec .aluH s = .next (withResult s s.h) ∧
    exec .aluNotH s = .next (withResult s (~~~s.h)) ∧ exec .aluOr s = .next (withResult s (s.h ||| s.bus.b)) ∧
    exec .aluNotB s = .next (withResult s (~~~s.bus.b))

/-- R123 to R129, R113: the arithmetic functions under the default map, modulo 2^32, with their default codes (R112)
and their flags. Rests on the spec's own decision D5 (from general knowledge) and on the model's own logs 6 and 10. -/
def Obligations.NamedAluRowsArithmetic : Prop :=
  [53, 54, 57, 59, 60, 61, 63].map (fun k => valueRow aluRows k .alu0) =
      [.aluBInc, .aluBDec, .aluHInc, .aluNegH, .aluAdd, .aluAddInc, .aluSub] ∧
  ∀ s : State, s.params.aluCodeMap = defaultAluCodeMap →
    exec .aluBInc s = .next (withResult s (BitVec.ofNat 32 ((s.bus.b.toNat + 1) % 2 ^ 32))) ∧
    exec .aluBDec s = .next (withResult s (BitVec.ofNat 32 ((s.bus.b.toNat + 0xFFFFFFFF) % 2 ^ 32))) ∧
    exec .aluHInc s = .next (withResult s (BitVec.ofNat 32 ((s.h.toNat + 1) % 2 ^ 32))) ∧
    exec .aluNegH s = .next (withResult s (BitVec.ofNat 32 (((~~~s.h).toNat + 1) % 2 ^ 32))) ∧
    exec .aluAdd s = .next (withResult s (BitVec.ofNat 32 ((s.h.toNat + s.bus.b.toNat) % 2 ^ 32))) ∧
    exec .aluAddInc s = .next (withResult s (BitVec.ofNat 32 ((s.h.toNat + s.bus.b.toNat + 1) % 2 ^ 32))) ∧
    exec .aluSub s = .next (withResult s (BitVec.ofNat 32 ((s.bus.b.toNat + (~~~s.h).toNat + 1) % 2 ^ 32)))

/-! ### The rows of the shifter -/

/-- R134, R135, R136: the modes 0, 1 and 2, bit by bit; the flags and everything but the C-bus stay. -/
def Obligations.ShiftRowsDriveTheCBus : Prop :=
  [0, 1, 2].map (fun k => valueRow shiftRows k .shNone) = [.shNone, .shSll8, .shSrl1] ∧
  ∀ s : State,
    exec .shNone s = .next (withC s s.bus.r) ∧
    exec .shSll8 s = .next (withC s (s.bus.r.extractLsb' 0 24 ++ 0#8)) ∧
    exec .shSrl1 s = .next (withC s (0#1 ++ s.bus.r.extractLsb' 1 31))

/-- R137, R235: mode 3 is the identity in permissive mode and raises INVALID_SHIFT with 3 in strict mode. Rests on the
spec's own decisions D4, D8 and D13 and on the model's own logs 8 and 10. -/
def Obligations.InvalidShiftRow : Prop :=
  ∀ s : State,
    (s.params.strict = false → exec .sh3 s = .next (withC s s.bus.r)) ∧
    (s.params.strict = true → exec .sh3 s = .next (withFault s .invalidShift 3))

/-- R138: the rows of the B-bus, the ALU and the shifter write no register other than N and Z (and, in a fault,
FAULT), and only the ALU rows write N and Z. -/
def Obligations.BusAndAluRowsFrame : Prop :=
  ∀ (i : Instr) (s t : State), i.kind ∈ [FieldKind.bSelect, .aluOp, .shift] → exec i s = .next t →
    t = { s with n := t.n, z := t.z, fault := t.fault, bus := t.bus } ∧
    (i.kind ≠ .aluOp → t.n = s.n ∧ t.z = s.z)

/-! ### The rows of the C-bus -/

/-- R155 to R159, and the writes of R152 to R154, R160 and R161: each C row copies the C-bus value into its register
and changes nothing else; the row of the empty mask changes nothing. The row of bit k is bit 7 + k of the word. Rests
on the spec's own decision D7 and on the model's own log 10. -/
def Obligations.DestinationRowsCopyTheCBus : Prop :=
  [Instr.cMar, .cMdr, .cPc, .cSp, .cLv, .cCpp, .cTos, .cOpc, .cH].map Instr.mask =
      (List.range 9).map (fun k => BitVec.ofNat 36 (2 ^ (7 + k))) ∧
  ∀ s : State,
    exec .cMar s = .next { s with mar := s.bus.c } ∧ exec .cMdr s = .next { s with mdr := s.bus.c } ∧
    exec .cPc s = .next { s with pc := s.bus.c } ∧ exec .cSp s = .next { s with sp := s.bus.c } ∧
    exec .cLv s = .next { s with lv := s.bus.c } ∧ exec .cCpp s = .next { s with cpp := s.bus.c } ∧
    exec .cTos s = .next { s with tos := s.bus.c } ∧ exec .cOpc s = .next { s with opc := s.bus.c } ∧
    exec .cH s = .next { s with h := s.bus.c } ∧ exec .cNone s = .next s

/-- R150, R151, R162: the rows of any `c_dest` mask write the C-bus value to exactly the selected registers. Rests on
the spec's own decision D7 and on the model's own logs 4 and 10. -/
def Obligations.DistributorWritesExactlyTheSelectedRegisters : Prop :=
  ∀ (d : BitVec 9) (s : State), s.fault = none →
    runRows (maskRows d destRows .cNone) s = .next
      { s with
        mar := if d.getLsbD 0 then s.bus.c else s.mar
        mdr := if d.getLsbD 1 then s.bus.c else s.mdr
        pc := if d.getLsbD 2 then s.bus.c else s.pc
        sp := if d.getLsbD 3 then s.bus.c else s.sp
        lv := if d.getLsbD 4 then s.bus.c else s.lv
        cpp := if d.getLsbD 5 then s.bus.c else s.cpp
        tos := if d.getLsbD 6 then s.bus.c else s.tos
        opc := if d.getLsbD 7 then s.bus.c else s.opc
        h := if d.getLsbD 8 then s.bus.c else s.h }

/-! ### The rows of the memory access controller -/

/-- R172, R177: the fetch loads the byte at PC and leaves PC and all else; out of range it raises FETCH_OUT_OF_RANGE
with PC, in both modes. Rests on the spec's own decisions D13 and D16 and on the model's own logs 8 and 10. -/
def Obligations.FetchRow : Prop :=
  ∀ s : State,
    (s.pc.toNat < s.params.memSize → exec .memFetch s = .next { s with mbr := Memory.readByte s.mem s.pc.toNat }) ∧
    (s.params.memSize ≤ s.pc.toNat → exec .memFetch s = .next (withFault s .fetchOutOfRange s.pc))

/-- R174, R178, R52, R57: the read loads the little-endian word at the exact offset MAR*4 and changes nothing else;
out of range it raises READ_OUT_OF_RANGE with MAR*4 modulo 2^32, in both modes. Rests on the spec's own decisions D1,
D13 and D16 and on the model's own logs 8 and 10. -/
def Obligations.ReadRow : Prop :=
  ∀ s : State,
    (s.mar.toNat * 4 + 4 ≤ s.params.memSize →
      ∃ v : Word, exec .memRd s = .next { s with mdr := v } ∧
        v.toNat = (Memory.readByte s.mem (s.mar.toNat * 4)).toNat
          + 2 ^ 8 * (Memory.readByte s.mem (s.mar.toNat * 4 + 1)).toNat
          + 2 ^ 16 * (Memory.readByte s.mem (s.mar.toNat * 4 + 2)).toNat
          + 2 ^ 24 * (Memory.readByte s.mem (s.mar.toNat * 4 + 3)).toNat) ∧
    (s.params.memSize < s.mar.toNat * 4 + 4 →
      exec .memRd s = .next (withFault s .readOutOfRange (BitVec.ofNat 32 (s.mar.toNat * 4 % 2 ^ 32))))

/-- R176, R178, R55: the write stores the four bytes of MDR, little-endian, from the exact offset MAR*4, and leaves
every other byte and all else; out of range it raises WRITE_OUT_OF_RANGE with MAR*4 modulo 2^32, in both modes. The
premise is the canonical form of memory, which every step keeps (InvariantIsKept). Rests on the spec's own decisions
D1, D13 and D16 and on the model's own logs 3, 8 and 10. -/
def Obligations.WriteRow : Prop :=
  ∀ s : State, Memory.wf s.mem = true →
    (s.mar.toNat * 4 + 4 ≤ s.params.memSize →
      ∃ m : Memory, exec .memWr s = .next { s with mem := m } ∧
        (∀ k < 4, (Memory.readByte m (s.mar.toNat * 4 + k)).toNat = s.mdr.toNat / 2 ^ (8 * k) % 2 ^ 8) ∧
        (∀ a : Nat, a < s.mar.toNat * 4 ∨ s.mar.toNat * 4 + 4 ≤ a → Memory.readByte m a = Memory.readByte s.mem a)) ∧
    (s.params.memSize < s.mar.toNat * 4 + 4 →
      exec .memWr s = .next (withFault s .writeOutOfRange (BitVec.ofNat 32 (s.mar.toNat * 4 % 2 ^ 32))))

/-- R170, R180: the row of the empty `mem_ops` mask performs no access and changes nothing; the rows of any mask, all
accesses in range, do the fetch, then the read, then the write, each seeing the effects of the ones before it, and
nothing else changes. Rests on the spec's own decisions D1, D7 and D16 and on the model's own logs 4 and 10. -/
def Obligations.MemoryUnitRunsFetchReadWrite : Prop :=
  (∀ s : State, exec .memNone s = .next s) ∧
  ∀ (m : BitVec 3) (s : State), s.fault = none →
    (m.getLsbD 0 = true → s.pc.toNat < s.params.memSize) →
    (m.getLsbD 1 = true ∨ m.getLsbD 2 = true → s.mar.toNat * 4 + 4 ≤ s.params.memSize) →
    ∃ v : Word, v = (if m.getLsbD 1 then Memory.readWord s.mem (s.mar.toNat * 4) else s.mdr) ∧
      runRows (maskRows m memRows .memNone) s = .next
        { s with
          mbr := if m.getLsbD 0 then Memory.readByte s.mem s.pc.toNat else s.mbr
          mdr := v
          mem := if m.getLsbD 2 then Memory.writeWord s.mem (s.mar.toNat * 4) v else s.mem }

/-- R56: a word written and then read at the same word address comes back, whatever is in MDR at the read. Rests on
the spec's own decision D16 and on the model's own logs 3 and 10. -/
def Obligations.WordWrittenThenReadComesBack : Prop :=
  ∀ (s : State) (x : Word), Memory.wf s.mem = true → s.mar.toNat * 4 + 4 ≤ s.params.memSize →
    ∃ t u : State, exec .memWr s = .next t ∧ exec .memRd { t with mdr := x } = .next u ∧ u.mdr = s.mdr

/-- R53: a fetch at byte offset 4w+k returns bits 8k+7 to 8k of the word at word address w. Rests on the spec's own
decisions D1 and D16 and on the model's own log 10. -/
def Obligations.FetchedByteIsAByteOfTheWord : Prop :=
  ∀ (s : State) (k : Nat), k < 4 → s.pc.toNat = 4 * s.mar.toNat + k → s.mar.toNat * 4 + 4 ≤ s.params.memSize →
    ∃ t u : State, exec .memFetch s = .next t ∧ exec .memRd s = .next u ∧ t.mbr = u.mdr.extractLsb' (8 * k) 8

/-! ### The rows of the next-address resolver -/

/-- R191 to R194: each JAM row ORs its contribution (N or Z in bit 8, the byte buffer in bits 7 to 0), and the row of
the empty mask contributes 0; R196: the NEXT row ORs the contribution into its address and writes MPC. -/
def Obligations.JamAndNextRows : Prop :=
  ∀ s : State,
    exec .jamN s = .next (withContrib s (s.bus.contrib ||| if s.n then 0x100 else 0)) ∧
    exec .jamZ s = .next (withContrib s (s.bus.contrib ||| if s.z then 0x100 else 0)) ∧
    exec .jamMpc s = .next (withContrib s (s.bus.contrib ||| BitVec.ofNat 9 s.mbr.toNat)) ∧
    exec .jamNone s = .next (withContrib s 0) ∧
    ∀ a : CsAddr, exec (.nextAddr a) s = .next { s with mpc := a ||| s.bus.contrib }

/-- R195, R196: the rows of any `jump` mask and any `next_addr` set MPC to the address with the contributions ORed in,
and change nothing else of the core. Rests on the spec's own decision D7 and on the model's own logs 4, 5 and 10. -/
def Obligations.ResolverOrsTheContributions : Prop :=
  ∀ (a : CsAddr) (j : BitVec 3) (s : State), s.fault = none → s.bus.contrib = 0 →
    ∃ t : State, runRows (maskRows j jamRows .jamNone ++ [.nextAddr a]) s = .next t ∧
      t = { s with mpc := resolve a s.n s.z s.mbr j, bus := t.bus }

/-! ### All rows -/

/-- Every row of the table answers a next state, in every state: no row's meaning stops. No row writes CS (R39), the
parameters (R44) or MIR (R36). Rests on the spec's own decision D13 and on the model's own logs 4, 8 and 10. -/
def Obligations.EveryRowAnswersANextState : Prop :=
  ∀ (i : Instr) (s : State), ∃ t : State, exec i s = .next t ∧ t.cs = s.cs ∧ t.params = s.params ∧ t.mir = s.mir

/-- R232: a row either leaves FAULT alone, or raises a fault: FAULT takes a cause, an information and the MPC of the
cycle, and nothing else changes. Rests on the spec's own decision D13 and on the model's own logs 8 and 10. -/
def Obligations.RowsWriteFaultOnlyByRaising : Prop :=
  ∀ (i : Instr) (s t : State), exec i s = .next t →
    t.fault = s.fault ∨ ∃ (cause : FaultCause) (info : Word), t = withFault s cause info

/-- R37, R131: N and Z are written by the ALU rows and by nothing else; an ALU row that raises no fault leaves the
flags of its result, N for nonzero and Z for zero; and after a cycle exactly one of them is 1. -/
def Obligations.OnlyAluRowsWriteTheFlags : Prop :=
  (∀ s t : State, Ran s t → t.n = !t.z) ∧
  ∀ (i : Instr) (s t : State), exec i s = .next t →
    (i.kind ≠ .aluOp → t.n = s.n ∧ t.z = s.z) ∧
    (i.kind = .aluOp → s.fault = none → t.fault = none → (t.n = true ↔ t.bus.r ≠ 0) ∧ (t.z = true ↔ t.bus.r = 0))

/-! ### The cycle -/

/-- A step runs the decoded microinstruction (R211, R214): the rows of the word at MPC, one after the other up to the
first fault, from the state with MIR loaded and the buses idle; then a fault keeps the start state with FAULT set, and
no fault keeps the working state. Rests on the spec's own decision D13 and on the model's own logs 4, 5, 8 and 10. -/
def Obligations.StepRunsTheDecodedRows : Prop :=
  (∀ (s w : State) (l : List Instr), s.fault = none → decode (fetchMir s) = l →
    runRows l { s with mir := fetchMir s, bus := Buses.idle } = .next w →
    step s = .next (if w.fault.isSome then { s with fault := w.fault } else { w with bus := Buses.idle })) ∧
  (∀ (i : Instr) (rest : List Instr) (s t : State), exec i s = .next t →
    runRows (i :: rest) s = if t.fault.isSome then .next t else runRows rest t) ∧
  (∀ s : State, runRows [] s = .next s)

/-- R211 to R214, R238: the step that runs the table's rows is the closed-form cycle, on every state. Rests on the
spec's own decisions D1, D4, D6, D7, D8, D12, D13, D14, D15, D16 and D26 and on the model's own logs 4, 5, 6, 8 and
10. -/
def Obligations.StepIsTheClosedFormCycle : Prop := ∀ s : State, step s = referenceStep s

/-- R216, R213: a core whose FAULT is none has exactly one next state; one whose FAULT is not none has no cycle. Rests
on the spec's own decision D13 and on the model's own logs 8 and 10. -/
def Obligations.StepExistsExactlyWhenNotFaulted : Prop :=
  ∀ s : State, (s.fault = none → ∃ t : State, step s = .next t) ∧ (s.fault ≠ none → step s = .fault .stopped)

/-- R239, from R214 and R232: after a fault every register, flag, MIR, MPC and memory byte holds its value from before
the cycle; FAULT alone is set, and its mpc names the microinstruction. Rests on the spec's own decision D13 and on the
model's own logs 8 and 10. -/
def Obligations.FaultingCycleKeepsNothingElse : Prop :=
  ∀ s t : State, Faulted s t → ∃ (cause : FaultCause) (info : Word), t = withFault s cause info

/-- R231, R238: the fault a cycle records is the first of the table's conditions that holds, with its information;
without one, FAULT stays none. The causes have the codes 1 to 6, no fault the code 0. Rests on the spec's own
decisions D4, D8, D13, D14, D15, D16 and D26 and on the model's own logs 8 and 10. -/
def Obligations.RecordedFaultIsTheFirstOfTheTable : Prop :=
  (∀ s t : State, step s = .next t → t.fault = firstFault s ∧ (firstFault s = none → faultCode t = 0)) ∧
  [FaultCause.invalidBSelect, .invalidAluOp, .invalidShift, .fetchOutOfRange, .readOutOfRange, .writeOutOfRange].map
    FaultCause.code = [1, 2, 3, 4, 5, 6]

/-- R236: an access out of range faults in strict and in permissive mode, and permissive mode relaxes only the codes 1
to 3. Rests on the spec's own decisions D4, D7, D13, D16 and D26 and on the model's own logs 8 and 10. -/
def Obligations.RangeFaultsHoldInBothModes : Prop :=
  (∀ s : State, s.fault = none →
    (wantsFetch s = true ∧ s.params.memSize ≤ (pcAfter s).toNat) ∨
      ((wantsRead s = true ∨ wantsWrite s = true) ∧ s.params.memSize < (marAfter s).toNat * 4 + 4) →
    ∃ t : State, Faulted s t) ∧
  (∀ (s t : State) (f : FaultRecord), s.params.strict = false → step s = .next t → t.fault = some f →
    4 ≤ f.cause.code ∧ f.cause.code ≤ 6)

/-- R17: a cycle that raises no fault in strict mode does the same in permissive mode. Rests on the spec's own
decisions D4 and D13 and on the model's own logs 1, 8 and 10. -/
def Obligations.PermissiveAgreesWithUnfaultedStrict : Prop :=
  ∀ s t : State, Ran s t →
    Ran { s with params := { s.params with strict := false } } { t with params := { t.params with strict := false } }

/-- R221: a cycle without a fault writes MIR, N, Z and MPC, the registers that `c_dest` selects, MBR if FETCH is set,
MDR if RD is set, and the four bytes from MAR*4 (MAR after the C-bus) if WR is set; nothing else changes. The premise
is the canonical form of memory, which every step keeps (InvariantIsKept). Rests on the spec's own decisions D7, D13
and D16 and on the model's own logs 3, 8 and 10. -/
def Obligations.CycleFrame : Prop :=
  ∀ s t : State, Memory.wf s.mem = true → Ran s t →
    t.mir = fetchMir s ∧
    (selectsDest s 0 = false → t.mar = s.mar) ∧ (selectsDest s 2 = false → t.pc = s.pc) ∧
    (selectsDest s 3 = false → t.sp = s.sp) ∧ (selectsDest s 4 = false → t.lv = s.lv) ∧
    (selectsDest s 5 = false → t.cpp = s.cpp) ∧ (selectsDest s 6 = false → t.tos = s.tos) ∧
    (selectsDest s 7 = false → t.opc = s.opc) ∧ (selectsDest s 8 = false → t.h = s.h) ∧
    (selectsDest s 1 = false → wantsRead s = false → t.mdr = s.mdr) ∧
    (wantsFetch s = false → t.mbr = s.mbr) ∧ (wantsWrite s = false → t.mem = s.mem) ∧
    (∀ a : Nat, a < (marAfter s).toNat * 4 ∨ (marAfter s).toNat * 4 + 4 ≤ a →
      Memory.readByte t.mem a = Memory.readByte s.mem a) ∧
    t.mar = marAfter s ∧ t.cs = s.cs ∧ t.params = s.params ∧ t.fault = s.fault

/-- R162, R271, R138: after a cycle every selected register (MDR where no read follows) holds the C-bus value that the
registers of the cycle's start give. Rests on the spec's own decisions D4, D6, D7 and D8 and on the model's own logs 6
and 10. -/
def Obligations.SelectedRegistersHoldTheCBusValue : Prop :=
  ∀ s t : State, Ran s t →
    (selectsDest s 0 = true → t.mar = cValue s) ∧
    (selectsDest s 1 = true → wantsRead s = false → t.mdr = cValue s) ∧
    (selectsDest s 2 = true → t.pc = cValue s) ∧ (selectsDest s 3 = true → t.sp = cValue s) ∧
    (selectsDest s 4 = true → t.lv = cValue s) ∧ (selectsDest s 5 = true → t.cpp = cValue s) ∧
    (selectsDest s 6 = true → t.tos = cValue s) ∧ (selectsDest s 7 = true → t.opc = cValue s) ∧
    (selectsDest s 8 = true → t.h = cValue s) ∧
    (t.n = true ↔ rValue s ≠ 0) ∧ (t.z = true ↔ rValue s = 0)

/-- R175, R171: a read in the cycle leaves in MDR the word at MAR*4, with the MAR of this cycle's C-bus write, even
where the C-bus writes MDR in the same cycle. Rests on the spec's own decisions D1, D7 and D16 and on the model's own
log 10. -/
def Obligations.ReadOverwritesTheCBusValue : Prop :=
  ∀ s t : State, Ran s t → wantsRead s = true → t.mdr = Memory.readWord s.mem (t.mar.toNat * 4)

/-- R179: with RD and WR in one cycle memory is unchanged and MDR holds the word, a C-bus value for MDR being lost.
Rests on the spec's own decisions D1, D7 and D16 and on the model's own logs 3 and 10. -/
def Obligations.ReadAndWriteInOneCycle : Prop :=
  ∀ s t : State, Memory.wf s.mem = true → Ran s t → wantsRead s = true → wantsWrite s = true →
    t.mem = s.mem ∧ t.mdr = Memory.readWord s.mem (t.mar.toNat * 4)

/-- R180, R172, R275: a fetch sees the byte from before the cycle's write, at the PC of this cycle's C-bus write.
Rests on the spec's own decision D7 and on the model's own log 10. -/
def Obligations.FetchSeesTheOldByteAtTheNewPc : Prop :=
  ∀ s t : State, Ran s t → wantsFetch s = true → t.mbr = Memory.readByte s.mem t.pc.toNat

/-- R176: a write stores the MDR that the cycle leaves (after the C-bus write and the read), little-endian, at the MAR
that the cycle leaves. Rests on the spec's own decisions D1, D7 and D16 and on the model's own logs 3 and 10. -/
def Obligations.WriteStoresTheNewMdr : Prop :=
  ∀ s t : State, Memory.wf s.mem = true → Ran s t → wantsWrite s = true →
    ∀ k < 4, (Memory.readByte t.mem (t.mar.toNat * 4 + k)).toNat = t.mdr.toNat / 2 ^ (8 * k) % 2 ^ 8

/-- R190, R173, R274: the next address is resolved from the flags and the byte buffer that this same cycle leaves; so
fetch and JMPC in one microinstruction dispatch on the byte just fetched. Rests on the spec's own decision D7 and on
the model's own log 10. -/
def Obligations.NextAddressUsesThisCyclesFlagsAndByte : Prop :=
  ∀ s t : State, Ran s t →
    t.mpc = resolve (fieldsAt s).nextAddr t.n t.z t.mbr (fieldsAt s).jump ∧
    (wantsFetch s = true → (fieldsAt s).jump = 4 →
      t.mpc = (fieldsAt s).nextAddr ||| (Memory.readByte s.mem t.pc.toNat).setWidth 9)

/-- R39, R44: no step changes the control store or the parameters. Rests on the spec's own decision D4 and on the
model's own logs 1 and 10. -/
def Obligations.ControlStoreAndParametersNeverChange : Prop :=
  ∀ s t : State, step s = .next t → t.cs = s.cs ∧ t.params = s.params

/-- R39, R81: bits 63 to 36 of the control store's containers are read by nothing: a control store with the same bits
35 to 0 gives the same step, but for the control store itself. Rests on the spec's own decision D12 and on the model's
own log 10. -/
def Obligations.ContainerBitsAreReadByNothing : Prop :=
  ∀ (s t : State) (cs : Vector Container 512),
    (∀ a : CsAddr, significant (csEntry { s with cs := cs } a) = significant (csEntry s a)) →
    step s = .next t → step { s with cs := cs } = .next { t with cs := cs }

/-- R27 to R31: SP, LV, CPP, TOS and OPC act only as B-bus sources: where `b_select` does not name the register,
another value in it changes nothing of the step, but the register itself where the cycle does not write it. Rests on
the spec's own decisions D7 and D13 and on the model's own logs 8 and 10. -/
def Obligations.UnselectedSourcesDoNotInfluence : Prop :=
  ∀ (s t : State) (v : Word), step s = .next t →
    ((fieldsAt s).bSelect ≠ 4 → step { s with sp := v } = .next
      (if t.fault = none ∧ selectsDest s 3 = true then t else { t with sp := v })) ∧
    ((fieldsAt s).bSelect ≠ 5 → step { s with lv := v } = .next
      (if t.fault = none ∧ selectsDest s 4 = true then t else { t with lv := v })) ∧
    ((fieldsAt s).bSelect ≠ 6 → step { s with cpp := v } = .next
      (if t.fault = none ∧ selectsDest s 5 = true then t else { t with cpp := v })) ∧
    ((fieldsAt s).bSelect ≠ 7 → step { s with tos := v } = .next
      (if t.fault = none ∧ selectsDest s 6 = true then t else { t with tos := v })) ∧
    ((fieldsAt s).bSelect ≠ 8 → step { s with opc := v } = .next
      (if t.fault = none ∧ selectsDest s 7 = true then t else { t with opc := v }))

/-- R130, R270: under a map without code 0 (the default is one) an all-zero control-store entry faults in strict mode
with (INVALID_ALU_OP, 0, MPC); in permissive mode it sets Z and continues at 0, with no other register or byte
changed. Rests on the spec's own decisions D4, D5 (from general knowledge) and D13 and on the model's own logs 6, 8
and 10. -/
def Obligations.AllZeroEntry : Prop :=
  ∀ s : State, s.fault = none → fetchMir s = 0 → aluFnOf s.params 0 = none →
    (s.params.strict = true → step s = .next (withFault s .invalidAluOp 0)) ∧
    (s.params.strict = false →
      step s = .next { s with mir := 0, n := false, z := true, mpc := 0, bus := Buses.idle })

/-- R85: the five pseudo-instructions, under a map whose code 24 is H: no register or memory change, N and Z set from
H, and the stated next address; and an extra field replaces the field of the same name in the expansion. Rests on the
spec's own decisions D5 (from general knowledge), D7 and D23 and on the model's own logs 6, 10 and 15. -/
def Obligations.PseudoInstructions : Prop :=
  (∀ (s : State) (a : CsAddr), s.fault = none → aluFnOf s.params 24 = some .h →
    (fetchMir s = encode (Pseudo.nop a).expand ∨ fetchMir s = encode (Pseudo.goto a).expand →
      step s = .next (afterTestOfH s a)) ∧
    (fetchMir s = encode (Pseudo.ifnz a).expand →
      step s = .next (afterTestOfH s (if s.h ≠ 0 then a ||| 0x100 else a))) ∧
    (fetchMir s = encode (Pseudo.ifz a).expand →
      step s = .next (afterTestOfH s (if s.h = 0 then a ||| 0x100 else a))) ∧
    (fetchMir s = encode (Pseudo.dispatch a).expand →
      step s = .next (afterTestOfH s (a ||| s.mbr.setWidth 9)))) ∧
  (∀ (p : Pseudo) (extra : List Instr) (i : Instr),
    i ∈ p.expandWith extra ↔ i ∈ extra ∨ (i ∈ p.expand ∧ ∀ e ∈ extra, e.kind ≠ i.kind))

/-- R220, R222: the transactions of a cycle: the control store read once, at MPC; at most one byte fetch, one word
read and one word write, in that order, each inside the memory and the words aligned. What a faulting cycle issued
before its fault is the model's reading (log 14). Rests on the spec's own decisions D16 and D18 and
on the model's own logs 10 and 14. -/
def Obligations.TransactionsAreOrderedAndInRange : Prop :=
  ∀ (s : State) (io : CycleIO), cycleIO s = some io →
    io.csAddr = s.mpc ∧ io.csData = fetchMir s ∧
    ∃ f r w : List Transaction, io.memory = f ++ r ++ w ∧ f.length ≤ 1 ∧ r.length ≤ 1 ∧ w.length ≤ 1 ∧
      (∀ x ∈ f, ∃ a d, x = .fetch a d ∧ a.toNat < s.params.memSize) ∧
      (∀ x ∈ r, ∃ a d, x = .read a d ∧ a.toNat % 4 = 0 ∧ a.toNat + 4 ≤ s.params.memSize) ∧
      (∀ x ∈ w, ∃ a d, x = .write a d ∧ a.toNat % 4 = 0 ∧ a.toNat + 4 ≤ s.params.memSize)

/-- R222, R171: the transactions of a cycle without a fault: the addresses and data of the state that the cycle
leaves, the fetched byte and the word read being those of memory at the cycle's start. Rests on the spec's own
decisions D1, D7, D16 and D18 and on the model's own logs 10 and 14. -/
def Obligations.TransactionsOfAnUnfaultedCycle : Prop :=
  ∀ (s t : State) (io : CycleIO), Ran s t → cycleIO s = some io →
    io.fault = none ∧
    io.memory =
      (if wantsFetch s then [.fetch t.pc t.mbr] else [])
        ++ (if wantsRead s then
              [.read (BitVec.ofNat 34 (t.mar.toNat * 4)) (Memory.readWord s.mem (t.mar.toNat * 4))] else [])
        ++ (if wantsWrite s then [.write (BitVec.ofNat 34 (t.mar.toNat * 4)) t.mdr] else [])

/-! ### The invariant -/

/-- Every step keeps the invariant: memory in its canonical form and inside `MEM_SIZE` (R40), the parameters'
constraint (R10), nothing left on the buses (R43), the flags never both 1 (R37). From every state that meets it, not
only runs from reset. The canonical form and the bus fields are the model's own (logs 3 and 5). Rests on the spec's
own decisions D2, D13 and D16 and on the model's own logs 1, 3, 5, 8 and 10. -/
def Obligations.InvariantIsKept : Prop := ∀ s t : State, Inv s → step s = .next t → Inv t

/-- The bare reset state meets the invariant. Its MEM_SIZE of 2048 is the model's choice (log 2). Rests on the spec's
own decisions D2 and D24 and on the model's own logs 2, 3, 5 and 10. -/
def Obligations.ResetMeetsTheInvariant : Prop := Inv State.reset

/-! ### Reset, load, runs and the host -/

/-- R41, R260, R263, R266, R268: the state that a reset with the two images leaves: registers, flags and MPC 0, FAULT
none, the control store's 512 records little-endian, the initialization region, the program region, and `MEM_INIT`
everywhere else in the memory. Rests on the spec's own decisions D1, D3, D19, D20 and D24 and on the model's own logs
3 and 10. -/
def Obligations.ResetLoadsTheImages : Prop :=
  ∀ (p : Params) (memInit : Nat → Byte) (rom image : List Byte) (s : State),
    boot p memInit (some rom) (some image) = .ok s →
    s.mar = 0 ∧ s.mdr = 0 ∧ s.pc = 0 ∧ s.mbr = 0 ∧ s.sp = 0 ∧ s.lv = 0 ∧ s.cpp = 0 ∧ s.tos = 0 ∧ s.opc = 0 ∧ s.h = 0 ∧
    s.mpc = 0 ∧ s.mir = 0 ∧ s.n = false ∧ s.z = false ∧ s.fault = none ∧ s.params = p ∧
    (∀ (a : CsAddr) (k : Nat), k < 8 → (csEntry s a).extractLsb' (8 * k) 8 = rom.getD (8 * a.toNat + k) 0) ∧
    (∀ k < 20, Memory.readByte s.mem k = image.getD (4 + k) 0) ∧
    (∀ k < leValue (image.take 4) - 20, Memory.readByte s.mem (1025 + k) = image.getD (24 + k) 0) ∧
    (∀ a < p.memSize, 20 ≤ a → a < 1025 ∨ 1025 + (leValue (image.take 4) - 20) ≤ a →
      Memory.readByte s.mem a = memInit a)

/-- R264, R265, R267: exactly which images load: a control-store file of at least 4096 bytes, and an image with 20 ≤
length, 1005 + length ≤ MEM_SIZE and at least 4 + length bytes; a missing file never loads. Rests on the spec's own
decisions D1, D19 and D20 and on the model's own log 10. -/
def Obligations.LoadSucceedsExactlyOnGoodImages : Prop :=
  (∀ (p : Params) (memInit : Nat → Byte) (rom image : List Byte),
    (∃ s : State, boot p memInit (some rom) (some image) = .ok s) ↔
      4096 ≤ rom.length ∧ 4 ≤ image.length ∧ 20 ≤ leValue (image.take 4) ∧
        1005 + leValue (image.take 4) ≤ p.memSize ∧ 4 + leValue (image.take 4) ≤ image.length) ∧
  (∀ (p : Params) (memInit : Nat → Byte) (rom image : Option (List Byte)), rom = none ∨ image = none →
    ∀ s : State, boot p memInit rom image ≠ .ok s)

/-- A state that a load leaves meets the invariant, for every `MEM_INIT` and every value of the parameters. Rests on
the spec's own decisions D2, D3 and D19 and on the model's own logs 1, 3, 5 and 10. -/
def Obligations.LoadedStateMeetsTheInvariant : Prop :=
  ∀ (p : Params) (memInit : Nat → Byte) (rom image : Option (List Byte)) (s : State),
    boot p memInit rom image = .ok s → Inv s

/-- The bare reset state is the load of all-zero images under the model's chosen parameters (MEM_SIZE 2048, log 2;
MEM_INIT zero, log 3; control store zero, log 7): the model's choice, no rule of the spec. Rests on the spec's own
decisions D2, D3 and D24 and on the model's own logs 2, 3, 7 and 10. -/
def Obligations.BareResetIsTheLoadOfZeroImages : Prop :=
  boot defaultParams (fun _ => 0) (some (List.replicate 4096 0)) (some (20#8 :: List.replicate 23 0)) = .ok State.reset

/-- R215: a run ends at once where `HALT` holds or FAULT is set, else its first cycle is a step; a run of j + k cycles
is a run of k cycles from where j cycles end. Rests on the spec's own decisions D13 and D17 and on the model's own
logs 8 and 9. -/
def Obligations.RunsStopAtHaltOrFaultAndCompose : Prop :=
  ∀ (halt : State → Bool) (s : State),
    (∀ k : Nat, halt s = true ∨ s.fault ≠ none → runUntil halt k s = s) ∧
    (∀ (k : Nat) (t : State), halt s = false → step s = .next t → runUntil halt (k + 1) s = runUntil halt k t) ∧
    (∀ j k : Nat, runUntil halt (j + k) s = runUntil halt k (runUntil halt j s))

/-- R218, R241, R269: a core that is held keeps its state; a faulted core that is let run keeps its state; a reset
gives a state that does not depend on the state before it; and no host action but a reset clears FAULT. Rests on the
spec's own decisions D13 and D25 and on the model's own logs 8 and 9. -/
def Obligations.OnlyResetLeavesAFault : Prop :=
  (∀ s : State, hostAct .hold (some s) = some s) ∧
  (∀ s : State, s.fault ≠ none → hostAct .run (some s) = some s) ∧
  (∀ (p : Params) (memInit : Nat → Byte) (rom image : Option (List Byte)) (x y : Option State),
    hostAct (.reset p memInit rom image) x = hostAct (.reset p memInit rom image) y) ∧
  (∀ (p : Params) (memInit : Nat → Byte) (rom image : Option (List Byte)) (x : Option State) (t : State),
    hostAct (.reset p memInit rom image) x = some t → t.fault = none)
end

