-- ==== Sys2Proof/Laws/Memory.lean ====
section
/-! SUPPORT. Memory: read after write, the canonical form, and the memory that a function of the address gives. -/

namespace Sys2Proof.Machine

/-! ### One byte -/

theorem readByte_cons (a : Nat) (v : Byte) (m : Memory) (b : Nat) (h : a = b → m.readByte b = unlisted b) :
    (Memory.cons a v m).readByte b = if a = b then v else m.readByte b := by
  unfold Memory.cons
  split
  · rename_i hv
    split
    · rename_i hab; subst hab; rw [h rfl, hv]
    · rfl
  · simp only [Memory.readByte]

theorem wfFrom_mono {lo lo' : Nat} (hle : lo' ≤ lo) {m : Memory} (h : Memory.wfFrom lo m = true) :
    Memory.wfFrom lo' m = true := by
  cases m with
  | nil => rfl
  | cons c rest =>
    simp only [Memory.wfFrom, Bool.and_eq_true, decide_eq_true_eq] at h ⊢
    exact ⟨⟨by omega, h.1.2⟩, h.2⟩

/-- Below its first address a canonical memory lists nothing. -/
theorem readByte_below {lo : Nat} {m : Memory} (h : Memory.wfFrom lo m = true) {a : Nat} (ha : a < lo) :
    m.readByte a = unlisted a := by
  induction m generalizing lo with
  | nil => rfl
  | cons c rest ih =>
    simp only [Memory.wfFrom, Bool.and_eq_true, decide_eq_true_eq] at h
    simp only [Memory.readByte]
    rw [if_neg (by omega)]
    exact ih h.2 (by omega)

theorem readByte_writeByte_from {lo : Nat} {m : Memory} (h : Memory.wfFrom lo m = true) (a : Nat) (v : Byte) (b : Nat) :
    (m.writeByte a v).readByte b = if a = b then v else m.readByte b := by
  induction m generalizing lo with
  | nil => exact readByte_cons a v [] b (fun _ => rfl)
  | cons c rest ih =>
    have h' := h
    simp only [Memory.wfFrom, Bool.and_eq_true, decide_eq_true_eq] at h
    unfold Memory.writeByte
    split
    · rename_i hlt
      exact readByte_cons a v _ b (fun hab => by
        have hw : Memory.wfFrom c.1 (c :: rest) = true := by
          simp only [Memory.wfFrom, Bool.and_eq_true, decide_eq_true_eq]; exact ⟨⟨le_refl _, h.1.2⟩, h.2⟩
        exact readByte_below hw (by omega))
    · split
      · rename_i hak
        rw [readByte_cons a v rest b (fun hab => readByte_below h.2 (by omega))]
        simp only [Memory.readByte]
        split
        · rfl
        · rw [if_neg (by omega)]
      · simp only [Memory.readByte]
        rw [ih h.2]
        split <;> split <;> first | rfl | omega

/-- Reading one byte after writing one. -/
theorem readByte_writeByte {m : Memory} (h : m.wf = true) (a : Nat) (v : Byte) (b : Nat) :
    (m.writeByte a v).readByte b = if a = b then v else m.readByte b :=
  readByte_writeByte_from h a v b

theorem wfFrom_cons {lo a : Nat} (v : Byte) {m : Memory} (hlo : lo ≤ a) (h : Memory.wfFrom (a + 1) m = true) :
    Memory.wfFrom lo (Memory.cons a v m) = true := by
  unfold Memory.cons
  split
  · exact wfFrom_mono (by omega) h
  · rename_i hv
    simp only [Memory.wfFrom, Bool.and_eq_true, decide_eq_true_eq, Bool.not_eq_true', beq_eq_false_iff_ne]
    exact ⟨⟨hlo, hv⟩, h⟩

theorem wfFrom_writeByte {lo : Nat} {m : Memory} (h : Memory.wfFrom lo m = true) {a : Nat} (ha : lo ≤ a) (v : Byte) :
    Memory.wfFrom lo (m.writeByte a v) = true := by
  induction m generalizing lo with
  | nil => exact wfFrom_cons v ha rfl
  | cons c rest ih =>
    have h' := h
    simp only [Memory.wfFrom, Bool.and_eq_true, decide_eq_true_eq] at h
    unfold Memory.writeByte
    split
    · refine wfFrom_cons v ha ?_
      simp only [Memory.wfFrom, Bool.and_eq_true, decide_eq_true_eq]
      exact ⟨⟨by omega, h.1.2⟩, h.2⟩
    · split
      · exact wfFrom_cons v ha (wfFrom_mono (by omega) h.2)
      · simp only [Memory.wfFrom, Bool.and_eq_true, decide_eq_true_eq]
        exact ⟨h.1, ih h.2 (by omega)⟩

/-- Writing a byte keeps the canonical form. -/
theorem wf_writeByte {m : Memory} (h : m.wf = true) (a : Nat) (v : Byte) : (m.writeByte a v).wf = true :=
  wfFrom_writeByte h (Nat.zero_le a) v

theorem within_cons {size a : Nat} (ha : a < size) (v : Byte) {m : Memory} (h : m.within size = true) :
    (Memory.cons a v m).within size = true := by
  unfold Memory.cons
  split
  · exact h
  · unfold Memory.within at h ⊢
    rw [List.all_cons, h]
    simp [ha]

/-- Writing a byte inside the memory lists no address outside it. -/
theorem within_writeByte {size : Nat} {m : Memory} (h : m.within size = true) {a : Nat} (ha : a < size) (v : Byte) :
    (m.writeByte a v).within size = true := by
  induction m with
  | nil => exact within_cons ha v h
  | cons c rest ih =>
    have hr : Memory.within size rest = true := by
      unfold Memory.within at h ⊢; rw [List.all_cons, Bool.and_eq_true] at h; exact h.2
    unfold Memory.writeByte
    split
    · exact within_cons ha v h
    · split
      · exact within_cons ha v hr
      · unfold Memory.within at h ih ⊢
        rw [List.all_cons, Bool.and_eq_true] at h ⊢
        exact ⟨h.1, ih hr⟩

/-! ### One word -/

/-- Writing a word keeps the canonical form. -/
theorem wf_writeWord {m : Memory} (h : m.wf = true) (a : Nat) (v : Word) : (m.writeWord a v).wf = true := by
  unfold Memory.writeWord
  exact wf_writeByte (wf_writeByte (wf_writeByte (wf_writeByte h _ _) _ _) _ _) _ _

/-- Writing a word inside the memory lists no address outside it. -/
theorem within_writeWord {size : Nat} {m : Memory} (h : m.within size = true) {a : Nat} (ha : a + 4 ≤ size) (v : Word) :
    (m.writeWord a v).within size = true := by
  unfold Memory.writeWord
  exact within_writeByte (within_writeByte (within_writeByte (within_writeByte h (by omega) _) (by omega) _)
    (by omega) _) (by omega) _

/-- Reading one byte after writing a word. -/
theorem readByte_writeWord {m : Memory} (h : m.wf = true) (a : Nat) (v : Word) (b : Nat) :
    (m.writeWord a v).readByte b = if a ≤ b ∧ b < a + 4 then wordByte v (b - a) else m.readByte b := by
  have h1 := wf_writeByte h a (wordByte v 0)
  have h2 := wf_writeByte h1 (a + 1) (wordByte v 1)
  have h3 := wf_writeByte h2 (a + 2) (wordByte v 2)
  unfold Memory.writeWord
  simp only [readByte_writeByte h3, readByte_writeByte h2, readByte_writeByte h1, readByte_writeByte h]
  by_cases hb : a ≤ b ∧ b < a + 4
  · rw [if_pos hb]
    obtain rfl | rfl | rfl | rfl : b = a ∨ b = a + 1 ∨ b = a + 2 ∨ b = a + 3 := by omega
    all_goals simp
  · rw [if_neg hb]
    rw [if_neg (by omega), if_neg (by omega), if_neg (by omega), if_neg (by omega)]

/-- Byte `k` of the word at an address is the byte at that address plus `k`. -/
theorem wordByte_readWord (m : Memory) (a : Nat) {k : Nat} (hk : k < 4) :
    wordByte (m.readWord a) k = m.readByte (a + k) := by
  unfold wordByte Memory.readWord
  apply BitVec.eq_of_getLsbD_eq
  intro i hi
  obtain rfl | rfl | rfl | rfl : k = 0 ∨ k = 1 ∨ k = 2 ∨ k = 3 := by omega
  all_goals
    simp only [BitVec.getLsbD_extractLsb', BitVec.getLsbD_or, BitVec.getLsbD_shiftLeft, BitVec.getLsbD_setWidth]
    interval_cases i <;> simp

/-- The word that four bytes spell is determined by its bytes. -/
theorem word_ext {v w : Word} (h : ∀ k < 4, wordByte v k = wordByte w k) : v = w := by
  apply BitVec.eq_of_getLsbD_eq
  intro i hi
  have hk := congrArg (fun x : Byte => x.getLsbD (i % 8)) (h (i / 8) (by omega))
  simp only [wordByte, BitVec.getLsbD_extractLsb'] at hk
  rwa [show 8 * (i / 8) + i % 8 = i by omega, decide_eq_true (show i % 8 < 8 by omega), Bool.true_and, Bool.true_and]
    at hk

/-- Reading a word after writing it (20_memory.md R56). -/
theorem readWord_writeWord {m : Memory} (h : m.wf = true) (a : Nat) (v : Word) : (m.writeWord a v).readWord a = v := by
  apply word_ext
  intro k hk
  rw [wordByte_readWord _ _ hk, readByte_writeWord h, if_pos (by omega), show a + k - a = k by omega]

/-! ### Equal memories are equal data -/

theorem eq_of_readByte_from {lo : Nat} {m m' : Memory} (h : Memory.wfFrom lo m = true)
    (h' : Memory.wfFrom lo m' = true) (he : ∀ a, m.readByte a = m'.readByte a) : m = m' := by
  induction m generalizing lo m' with
  | nil =>
    cases m' with
    | nil => rfl
    | cons c rest =>
      simp only [Memory.wfFrom, Bool.and_eq_true, Bool.not_eq_true', beq_eq_false_iff_ne] at h'
      have := he c.1
      simp only [Memory.readByte, if_pos] at this
      exact absurd this.symm h'.1.2
  | cons c rest ih =>
    have hc := h
    simp only [Memory.wfFrom, Bool.and_eq_true, decide_eq_true_eq, Bool.not_eq_true', beq_eq_false_iff_ne] at h
    cases m' with
    | nil =>
      have := he c.1
      simp only [Memory.readByte, if_pos] at this
      exact absurd this h.1.2
    | cons c' rest' =>
      have hc' := h'
      simp only [Memory.wfFrom, Bool.and_eq_true, decide_eq_true_eq, Bool.not_eq_true', beq_eq_false_iff_ne] at h'
      have hk : c.1 = c'.1 := by
        rcases Nat.lt_trichotomy c.1 c'.1 with hlt | heq | hgt
        · have e := he c.1
          simp only [Memory.readByte, if_pos] at e
          rw [if_neg (by omega), readByte_below h'.2 (by omega)] at e
          exact absurd e h.1.2
        · exact heq
        · have e := he c'.1
          simp only [Memory.readByte, if_pos] at e
          rw [if_neg (by omega), readByte_below h.2 (by omega)] at e
          exact absurd e.symm h'.1.2
      have hv : c.2 = c'.2 := by
        have e := he c.1
        simpa only [Memory.readByte, if_pos, hk] using e
      have hr : rest = rest' := by
        refine ih h.2 (hk ▸ h'.2) (fun a => ?_)
        by_cases ha : a < c.1 + 1
        · rw [readByte_below h.2 ha, readByte_below (hk ▸ h'.2) ha]
        · have e := he a
          simp only [Memory.readByte] at e
          rwa [if_neg (by omega), if_neg (by omega)] at e
      rw [hr, show c = c' from Prod.ext hk hv]

/-- Canonical memories that read alike are equal. -/
theorem eq_of_readByte {m m' : Memory} (h : m.wf = true) (h' : m'.wf = true)
    (he : ∀ a, m.readByte a = m'.readByte a) : m = m' :=
  eq_of_readByte_from h h' he

/-- Writing back the word that a memory holds changes nothing (43_memory_unit.md R179). -/
theorem writeWord_readWord {m : Memory} (h : m.wf = true) (a : Nat) : m.writeWord a (m.readWord a) = m := by
  refine eq_of_readByte (wf_writeWord h a _) h (fun b => ?_)
  rw [readByte_writeWord h]
  split
  · rename_i hb
    rw [wordByte_readWord _ _ (by omega), show a + (b - a) = b by omega]
  · rfl

/-! ### The memory of a function -/

theorem ofBytes_range' (f : Nat → Byte) (lo n : Nat) :
    let m : Memory := (List.range' lo n).filterMap (fun a => if f a = unlisted a then none else some (a, f a))
    Memory.wfFrom lo m = true ∧ ∀ b, m.readByte b = if lo ≤ b ∧ b < lo + n then f b else unlisted b := by
  induction n generalizing lo with
  | zero =>
    refine ⟨rfl, fun b => ?_⟩
    rw [if_neg (by omega)]
    rfl
  | succ n ih =>
    have ih' := ih (lo + 1)
    simp only at ih'
    simp only [List.range'_succ, List.filterMap_cons]
    by_cases hf : f lo = unlisted lo
    · rw [if_pos hf]
      refine ⟨wfFrom_mono (by omega) ih'.1, fun b => ?_⟩
      rw [ih'.2 b]
      by_cases hb : b = lo
      · subst hb; rw [if_neg (by omega), if_pos (by omega), hf]
      · split <;> split <;> first | rfl | omega
    · rw [if_neg hf]
      refine ⟨?_, fun b => ?_⟩
      · simp only [Memory.wfFrom, Bool.and_eq_true, decide_eq_true_eq, Bool.not_eq_true', beq_eq_false_iff_ne]
        exact ⟨⟨le_refl _, hf⟩, ih'.1⟩
      · simp only [Memory.readByte, ih'.2 b]
        by_cases hb : lo = b
        · subst hb; rw [if_pos rfl, if_pos (by omega)]
        · rw [if_neg hb]; split <;> split <;> first | rfl | omega

/-- What the memory of a function reads as. -/
theorem readByte_ofBytes (f : Nat → Byte) (n b : Nat) :
    (Memory.ofBytes f n).readByte b = if b < n then f b else unlisted b := by
  have := (ofBytes_range' f 0 n).2 b
  unfold Memory.ofBytes
  rw [List.range_eq_range', this]
  simp

/-- The memory of a function is canonical. -/
theorem wf_ofBytes (f : Nat → Byte) (n : Nat) : (Memory.ofBytes f n).wf = true := by
  have := (ofBytes_range' f 0 n).1
  unfold Memory.wf Memory.ofBytes
  rw [List.range_eq_range']
  exact this

/-- The memory of a function lists no address from its size on. -/
theorem within_ofBytes (f : Nat → Byte) (n : Nat) : (Memory.ofBytes f n).within n = true := by
  unfold Memory.within Memory.ofBytes
  rw [List.all_eq_true]
  intro c hc
  rw [List.mem_filterMap] at hc
  obtain ⟨a, ha, he⟩ := hc
  split at he
  · cases he
  · cases he; exact decide_eq_true (List.mem_range.mp ha)

end Sys2Proof.Machine
end

