-- ==== Sys2Proof/Laws/PerInstr.lean ====
section
/-! SUPPORT. The family Encoding of LAWS.json: a row's own pattern stands inside its mask, matches the row, and decodes to a
list of rows that has the row. -/

namespace Sys2Proof.Laws.Encoding

/-- A row's pattern, as a word, matches the row, and the decoder finds the row in it (30_encoding.md R80). -/
def Statement (i : Instr) : Prop :=
  i.pattern &&& i.mask = i.pattern ∧ i.matchesWord i.pattern = true ∧ i ∈ decode i.pattern

theorem bMdr : Statement .bMdr := ⟨by decide, by decide, by decide⟩
theorem bPc : Statement .bPc := ⟨by decide, by decide, by decide⟩
theorem bMbr : Statement .bMbr := ⟨by decide, by decide, by decide⟩
theorem bMbru : Statement .bMbru := ⟨by decide, by decide, by decide⟩
theorem bSp : Statement .bSp := ⟨by decide, by decide, by decide⟩
theorem bLv : Statement .bLv := ⟨by decide, by decide, by decide⟩
theorem bCpp : Statement .bCpp := ⟨by decide, by decide, by decide⟩
theorem bTos : Statement .bTos := ⟨by decide, by decide, by decide⟩
theorem bOpc : Statement .bOpc := ⟨by decide, by decide, by decide⟩
theorem b9 : Statement .b9 := ⟨by decide, by decide, by decide⟩
theorem b10 : Statement .b10 := ⟨by decide, by decide, by decide⟩
theorem b11 : Statement .b11 := ⟨by decide, by decide, by decide⟩
theorem b12 : Statement .b12 := ⟨by decide, by decide, by decide⟩
theorem b13 : Statement .b13 := ⟨by decide, by decide, by decide⟩
theorem b14 : Statement .b14 := ⟨by decide, by decide, by decide⟩
theorem b15 : Statement .b15 := ⟨by decide, by decide, by decide⟩
theorem aluZero : Statement .aluZero := ⟨by decide, by decide, by decide⟩
theorem aluOne : Statement .aluOne := ⟨by decide, by decide, by decide⟩
theorem aluMinusOne : Statement .aluMinusOne := ⟨by decide, by decide, by decide⟩
theorem aluAnd : Statement .aluAnd := ⟨by decide, by decide, by decide⟩
theorem aluB : Statement .aluB := ⟨by decide, by decide, by decide⟩
theorem aluH : Statement .aluH := ⟨by decide, by decide, by decide⟩
theorem aluNotH : Statement .aluNotH := ⟨by decide, by decide, by decide⟩
theorem aluOr : Statement .aluOr := ⟨by decide, by decide, by decide⟩
theorem aluNotB : Statement .aluNotB := ⟨by decide, by decide, by decide⟩
theorem aluBInc : Statement .aluBInc := ⟨by decide, by decide, by decide⟩
theorem aluBDec : Statement .aluBDec := ⟨by decide, by decide, by decide⟩
theorem aluHInc : Statement .aluHInc := ⟨by decide, by decide, by decide⟩
theorem aluNegH : Statement .aluNegH := ⟨by decide, by decide, by decide⟩
theorem aluAdd : Statement .aluAdd := ⟨by decide, by decide, by decide⟩
theorem aluAddInc : Statement .aluAddInc := ⟨by decide, by decide, by decide⟩
theorem aluSub : Statement .aluSub := ⟨by decide, by decide, by decide⟩
theorem alu0 : Statement .alu0 := ⟨by decide, by decide, by decide⟩
theorem alu1 : Statement .alu1 := ⟨by decide, by decide, by decide⟩
theorem alu2 : Statement .alu2 := ⟨by decide, by decide, by decide⟩
theorem alu3 : Statement .alu3 := ⟨by decide, by decide, by decide⟩
theorem alu4 : Statement .alu4 := ⟨by decide, by decide, by decide⟩
theorem alu5 : Statement .alu5 := ⟨by decide, by decide, by decide⟩
theorem alu6 : Statement .alu6 := ⟨by decide, by decide, by decide⟩
theorem alu7 : Statement .alu7 := ⟨by decide, by decide, by decide⟩
theorem alu8 : Statement .alu8 := ⟨by decide, by decide, by decide⟩
theorem alu9 : Statement .alu9 := ⟨by decide, by decide, by decide⟩
theorem alu10 : Statement .alu10 := ⟨by decide, by decide, by decide⟩
theorem alu11 : Statement .alu11 := ⟨by decide, by decide, by decide⟩
theorem alu13 : Statement .alu13 := ⟨by decide, by decide, by decide⟩
theorem alu14 : Statement .alu14 := ⟨by decide, by decide, by decide⟩
theorem alu15 : Statement .alu15 := ⟨by decide, by decide, by decide⟩
theorem alu19 : Statement .alu19 := ⟨by decide, by decide, by decide⟩
theorem alu21 : Statement .alu21 := ⟨by decide, by decide, by decide⟩
theorem alu22 : Statement .alu22 := ⟨by decide, by decide, by decide⟩
theorem alu23 : Statement .alu23 := ⟨by decide, by decide, by decide⟩
theorem alu25 : Statement .alu25 := ⟨by decide, by decide, by decide⟩
theorem alu27 : Statement .alu27 := ⟨by decide, by decide, by decide⟩
theorem alu29 : Statement .alu29 := ⟨by decide, by decide, by decide⟩
theorem alu30 : Statement .alu30 := ⟨by decide, by decide, by decide⟩
theorem alu31 : Statement .alu31 := ⟨by decide, by decide, by decide⟩
theorem alu32 : Statement .alu32 := ⟨by decide, by decide, by decide⟩
theorem alu33 : Statement .alu33 := ⟨by decide, by decide, by decide⟩
theorem alu34 : Statement .alu34 := ⟨by decide, by decide, by decide⟩
theorem alu35 : Statement .alu35 := ⟨by decide, by decide, by decide⟩
theorem alu36 : Statement .alu36 := ⟨by decide, by decide, by decide⟩
theorem alu37 : Statement .alu37 := ⟨by decide, by decide, by decide⟩
theorem alu38 : Statement .alu38 := ⟨by decide, by decide, by decide⟩
theorem alu39 : Statement .alu39 := ⟨by decide, by decide, by decide⟩
theorem alu40 : Statement .alu40 := ⟨by decide, by decide, by decide⟩
theorem alu41 : Statement .alu41 := ⟨by decide, by decide, by decide⟩
theorem alu42 : Statement .alu42 := ⟨by decide, by decide, by decide⟩
theorem alu43 : Statement .alu43 := ⟨by decide, by decide, by decide⟩
theorem alu45 : Statement .alu45 := ⟨by decide, by decide, by decide⟩
theorem alu46 : Statement .alu46 := ⟨by decide, by decide, by decide⟩
theorem alu47 : Statement .alu47 := ⟨by decide, by decide, by decide⟩
theorem alu48 : Statement .alu48 := ⟨by decide, by decide, by decide⟩
theorem alu49 : Statement .alu49 := ⟨by decide, by decide, by decide⟩
theorem alu50 : Statement .alu50 := ⟨by decide, by decide, by decide⟩
theorem alu51 : Statement .alu51 := ⟨by decide, by decide, by decide⟩
theorem alu52 : Statement .alu52 := ⟨by decide, by decide, by decide⟩
theorem alu55 : Statement .alu55 := ⟨by decide, by decide, by decide⟩
theorem alu56 : Statement .alu56 := ⟨by decide, by decide, by decide⟩
theorem alu58 : Statement .alu58 := ⟨by decide, by decide, by decide⟩
theorem alu62 : Statement .alu62 := ⟨by decide, by decide, by decide⟩
theorem shNone : Statement .shNone := ⟨by decide, by decide, by decide⟩
theorem shSll8 : Statement .shSll8 := ⟨by decide, by decide, by decide⟩
theorem shSrl1 : Statement .shSrl1 := ⟨by decide, by decide, by decide⟩
theorem sh3 : Statement .sh3 := ⟨by decide, by decide, by decide⟩
theorem cMar : Statement .cMar := ⟨by decide, by decide, by decide⟩
theorem cMdr : Statement .cMdr := ⟨by decide, by decide, by decide⟩
theorem cPc : Statement .cPc := ⟨by decide, by decide, by decide⟩
theorem cSp : Statement .cSp := ⟨by decide, by decide, by decide⟩
theorem cLv : Statement .cLv := ⟨by decide, by decide, by decide⟩
theorem cCpp : Statement .cCpp := ⟨by decide, by decide, by decide⟩
theorem cTos : Statement .cTos := ⟨by decide, by decide, by decide⟩
theorem cOpc : Statement .cOpc := ⟨by decide, by decide, by decide⟩
theorem cH : Statement .cH := ⟨by decide, by decide, by decide⟩
theorem cNone : Statement .cNone := ⟨by decide, by decide, by decide⟩
theorem memFetch : Statement .memFetch := ⟨by decide, by decide, by decide⟩
theorem memRd : Statement .memRd := ⟨by decide, by decide, by decide⟩
theorem memWr : Statement .memWr := ⟨by decide, by decide, by decide⟩
theorem memNone : Statement .memNone := ⟨by decide, by decide, by decide⟩
theorem jamN : Statement .jamN := ⟨by decide, by decide, by decide⟩
theorem jamZ : Statement .jamZ := ⟨by decide, by decide, by decide⟩
theorem jamMpc : Statement .jamMpc := ⟨by decide, by decide, by decide⟩
theorem jamNone : Statement .jamNone := ⟨by decide, by decide, by decide⟩
theorem nextAddr_pattern (addr : CsAddr) : Instr.pattern (.nextAddr addr) = addr.setWidth 36 <<< 27 := by
  apply BitVec.eq_of_toNat_eq
  rw [Instr.pattern, BitVec.toNat_ofNat, BitVec.toNat_shiftLeft, BitVec.toNat_setWidth, Nat.shiftLeft_eq,
    Nat.mod_eq_of_lt (Nat.lt_of_lt_of_le addr.isLt (Nat.pow_le_pow_right (by omega) (by omega) : 2 ^ 9 ≤ 2 ^ 36))]
  rfl

theorem nextAddr_and_mask (addr : CsAddr) :
    (addr.setWidth 36 <<< 27 : MicroWord) &&& Instr.mask (.nextAddr addr) = addr.setWidth 36 <<< 27 := by
  have hm : Instr.mask (.nextAddr addr) = BitVec.allOnes 36 <<< 27 := by
    rw [Instr.mask, Instr.placed]; dsimp only; decide
  rw [hm, ← BitVec.shiftLeft_and_distrib, BitVec.and_allOnes]

theorem nextAddr_field (addr : CsAddr) : (addr.setWidth 36 <<< 27 : MicroWord).extractLsb' 27 9 = addr := by
  apply BitVec.eq_of_getLsbD_eq
  intro k hk
  have h1 : 27 + k < 36 := by omega
  simp [hk, h1]

/-- Every address: the operand comes back (R78). -/
theorem nextAddr (addr : CsAddr) : Statement (.nextAddr addr) := by
  refine ⟨?_, ?_, ?_⟩
  · rw [nextAddr_pattern, nextAddr_and_mask]
  · rw [Instr.matchesWord, nextAddr_pattern, nextAddr_and_mask, beq_self_eq_true]
  · rw [nextAddr_pattern]
    simp only [decode, rowsOf, fieldsOf, List.mem_append, List.mem_singleton]
    exact Or.inr (by rw [nextAddr_field])

end Sys2Proof.Laws.Encoding
end

