-- ==== Sys2Proof/Laws/State.lean ====
section
/-! SUPPORT. What each named update of the state leaves in each field: true by rfl, for simp. -/

namespace Sys2Proof.Machine

/-! ### driveB -/

@[simp] theorem driveB_mar (s : State) (v : Word) : (s.driveB v).mar = s.mar := rfl
@[simp] theorem driveB_mdr (s : State) (v : Word) : (s.driveB v).mdr = s.mdr := rfl
@[simp] theorem driveB_pc (s : State) (v : Word) : (s.driveB v).pc = s.pc := rfl
@[simp] theorem driveB_mbr (s : State) (v : Word) : (s.driveB v).mbr = s.mbr := rfl
@[simp] theorem driveB_sp (s : State) (v : Word) : (s.driveB v).sp = s.sp := rfl
@[simp] theorem driveB_lv (s : State) (v : Word) : (s.driveB v).lv = s.lv := rfl
@[simp] theorem driveB_cpp (s : State) (v : Word) : (s.driveB v).cpp = s.cpp := rfl
@[simp] theorem driveB_tos (s : State) (v : Word) : (s.driveB v).tos = s.tos := rfl
@[simp] theorem driveB_opc (s : State) (v : Word) : (s.driveB v).opc = s.opc := rfl
@[simp] theorem driveB_h (s : State) (v : Word) : (s.driveB v).h = s.h := rfl
@[simp] theorem driveB_mpc (s : State) (v : Word) : (s.driveB v).mpc = s.mpc := rfl
@[simp] theorem driveB_mir (s : State) (v : Word) : (s.driveB v).mir = s.mir := rfl
@[simp] theorem driveB_n (s : State) (v : Word) : (s.driveB v).n = s.n := rfl
@[simp] theorem driveB_z (s : State) (v : Word) : (s.driveB v).z = s.z := rfl
@[simp] theorem driveB_fault (s : State) (v : Word) : (s.driveB v).fault = s.fault := rfl
@[simp] theorem driveB_cs (s : State) (v : Word) : (s.driveB v).cs = s.cs := rfl
@[simp] theorem driveB_mem (s : State) (v : Word) : (s.driveB v).mem = s.mem := rfl
@[simp] theorem driveB_params (s : State) (v : Word) : (s.driveB v).params = s.params := rfl
@[simp] theorem driveB_bus (s : State) (v : Word) : (s.driveB v).bus = { s.bus with b := v } := rfl

/-! ### driveC -/

@[simp] theorem driveC_mar (s : State) (v : Word) : (s.driveC v).mar = s.mar := rfl
@[simp] theorem driveC_mdr (s : State) (v : Word) : (s.driveC v).mdr = s.mdr := rfl
@[simp] theorem driveC_pc (s : State) (v : Word) : (s.driveC v).pc = s.pc := rfl
@[simp] theorem driveC_mbr (s : State) (v : Word) : (s.driveC v).mbr = s.mbr := rfl
@[simp] theorem driveC_sp (s : State) (v : Word) : (s.driveC v).sp = s.sp := rfl
@[simp] theorem driveC_lv (s : State) (v : Word) : (s.driveC v).lv = s.lv := rfl
@[simp] theorem driveC_cpp (s : State) (v : Word) : (s.driveC v).cpp = s.cpp := rfl
@[simp] theorem driveC_tos (s : State) (v : Word) : (s.driveC v).tos = s.tos := rfl
@[simp] theorem driveC_opc (s : State) (v : Word) : (s.driveC v).opc = s.opc := rfl
@[simp] theorem driveC_h (s : State) (v : Word) : (s.driveC v).h = s.h := rfl
@[simp] theorem driveC_mpc (s : State) (v : Word) : (s.driveC v).mpc = s.mpc := rfl
@[simp] theorem driveC_mir (s : State) (v : Word) : (s.driveC v).mir = s.mir := rfl
@[simp] theorem driveC_n (s : State) (v : Word) : (s.driveC v).n = s.n := rfl
@[simp] theorem driveC_z (s : State) (v : Word) : (s.driveC v).z = s.z := rfl
@[simp] theorem driveC_fault (s : State) (v : Word) : (s.driveC v).fault = s.fault := rfl
@[simp] theorem driveC_cs (s : State) (v : Word) : (s.driveC v).cs = s.cs := rfl
@[simp] theorem driveC_mem (s : State) (v : Word) : (s.driveC v).mem = s.mem := rfl
@[simp] theorem driveC_params (s : State) (v : Word) : (s.driveC v).params = s.params := rfl
@[simp] theorem driveC_bus (s : State) (v : Word) : (s.driveC v).bus = { s.bus with c := v } := rfl

/-! ### setContrib -/

@[simp] theorem setContrib_mar (s : State) (v : CsAddr) : (s.setContrib v).mar = s.mar := rfl
@[simp] theorem setContrib_mdr (s : State) (v : CsAddr) : (s.setContrib v).mdr = s.mdr := rfl
@[simp] theorem setContrib_pc (s : State) (v : CsAddr) : (s.setContrib v).pc = s.pc := rfl
@[simp] theorem setContrib_mbr (s : State) (v : CsAddr) : (s.setContrib v).mbr = s.mbr := rfl
@[simp] theorem setContrib_sp (s : State) (v : CsAddr) : (s.setContrib v).sp = s.sp := rfl
@[simp] theorem setContrib_lv (s : State) (v : CsAddr) : (s.setContrib v).lv = s.lv := rfl
@[simp] theorem setContrib_cpp (s : State) (v : CsAddr) : (s.setContrib v).cpp = s.cpp := rfl
@[simp] theorem setContrib_tos (s : State) (v : CsAddr) : (s.setContrib v).tos = s.tos := rfl
@[simp] theorem setContrib_opc (s : State) (v : CsAddr) : (s.setContrib v).opc = s.opc := rfl
@[simp] theorem setContrib_h (s : State) (v : CsAddr) : (s.setContrib v).h = s.h := rfl
@[simp] theorem setContrib_mpc (s : State) (v : CsAddr) : (s.setContrib v).mpc = s.mpc := rfl
@[simp] theorem setContrib_mir (s : State) (v : CsAddr) : (s.setContrib v).mir = s.mir := rfl
@[simp] theorem setContrib_n (s : State) (v : CsAddr) : (s.setContrib v).n = s.n := rfl
@[simp] theorem setContrib_z (s : State) (v : CsAddr) : (s.setContrib v).z = s.z := rfl
@[simp] theorem setContrib_fault (s : State) (v : CsAddr) : (s.setContrib v).fault = s.fault := rfl
@[simp] theorem setContrib_cs (s : State) (v : CsAddr) : (s.setContrib v).cs = s.cs := rfl
@[simp] theorem setContrib_mem (s : State) (v : CsAddr) : (s.setContrib v).mem = s.mem := rfl
@[simp] theorem setContrib_params (s : State) (v : CsAddr) : (s.setContrib v).params = s.params := rfl
@[simp] theorem setContrib_bus (s : State) (v : CsAddr) : (s.setContrib v).bus = { s.bus with contrib := v } := rfl

/-! ### setResult -/

@[simp] theorem setResult_mar (s : State) (r : Word) : (s.setResult r).mar = s.mar := rfl
@[simp] theorem setResult_mdr (s : State) (r : Word) : (s.setResult r).mdr = s.mdr := rfl
@[simp] theorem setResult_pc (s : State) (r : Word) : (s.setResult r).pc = s.pc := rfl
@[simp] theorem setResult_mbr (s : State) (r : Word) : (s.setResult r).mbr = s.mbr := rfl
@[simp] theorem setResult_sp (s : State) (r : Word) : (s.setResult r).sp = s.sp := rfl
@[simp] theorem setResult_lv (s : State) (r : Word) : (s.setResult r).lv = s.lv := rfl
@[simp] theorem setResult_cpp (s : State) (r : Word) : (s.setResult r).cpp = s.cpp := rfl
@[simp] theorem setResult_tos (s : State) (r : Word) : (s.setResult r).tos = s.tos := rfl
@[simp] theorem setResult_opc (s : State) (r : Word) : (s.setResult r).opc = s.opc := rfl
@[simp] theorem setResult_h (s : State) (r : Word) : (s.setResult r).h = s.h := rfl
@[simp] theorem setResult_mpc (s : State) (r : Word) : (s.setResult r).mpc = s.mpc := rfl
@[simp] theorem setResult_mir (s : State) (r : Word) : (s.setResult r).mir = s.mir := rfl
@[simp] theorem setResult_n (s : State) (r : Word) : (s.setResult r).n = flagN r := rfl
@[simp] theorem setResult_z (s : State) (r : Word) : (s.setResult r).z = flagZ r := rfl
@[simp] theorem setResult_fault (s : State) (r : Word) : (s.setResult r).fault = s.fault := rfl
@[simp] theorem setResult_cs (s : State) (r : Word) : (s.setResult r).cs = s.cs := rfl
@[simp] theorem setResult_mem (s : State) (r : Word) : (s.setResult r).mem = s.mem := rfl
@[simp] theorem setResult_params (s : State) (r : Word) : (s.setResult r).params = s.params := rfl
@[simp] theorem setResult_bus (s : State) (r : Word) : (s.setResult r).bus = { s.bus with r := r } := rfl

/-! ### raiseFault -/

@[simp] theorem raiseFault_mar (c : FaultCause) (i : Word) (s : State) : (raiseFault c i s).mar = s.mar := rfl
@[simp] theorem raiseFault_mdr (c : FaultCause) (i : Word) (s : State) : (raiseFault c i s).mdr = s.mdr := rfl
@[simp] theorem raiseFault_pc (c : FaultCause) (i : Word) (s : State) : (raiseFault c i s).pc = s.pc := rfl
@[simp] theorem raiseFault_mbr (c : FaultCause) (i : Word) (s : State) : (raiseFault c i s).mbr = s.mbr := rfl
@[simp] theorem raiseFault_sp (c : FaultCause) (i : Word) (s : State) : (raiseFault c i s).sp = s.sp := rfl
@[simp] theorem raiseFault_lv (c : FaultCause) (i : Word) (s : State) : (raiseFault c i s).lv = s.lv := rfl
@[simp] theorem raiseFault_cpp (c : FaultCause) (i : Word) (s : State) : (raiseFault c i s).cpp = s.cpp := rfl
@[simp] theorem raiseFault_tos (c : FaultCause) (i : Word) (s : State) : (raiseFault c i s).tos = s.tos := rfl
@[simp] theorem raiseFault_opc (c : FaultCause) (i : Word) (s : State) : (raiseFault c i s).opc = s.opc := rfl
@[simp] theorem raiseFault_h (c : FaultCause) (i : Word) (s : State) : (raiseFault c i s).h = s.h := rfl
@[simp] theorem raiseFault_mpc (c : FaultCause) (i : Word) (s : State) : (raiseFault c i s).mpc = s.mpc := rfl
@[simp] theorem raiseFault_mir (c : FaultCause) (i : Word) (s : State) : (raiseFault c i s).mir = s.mir := rfl
@[simp] theorem raiseFault_n (c : FaultCause) (i : Word) (s : State) : (raiseFault c i s).n = s.n := rfl
@[simp] theorem raiseFault_z (c : FaultCause) (i : Word) (s : State) : (raiseFault c i s).z = s.z := rfl
@[simp] theorem raiseFault_fault (c : FaultCause) (i : Word) (s : State) : (raiseFault c i s).fault = some { cause := c, info := i, mpc := s.mpc } := rfl
@[simp] theorem raiseFault_cs (c : FaultCause) (i : Word) (s : State) : (raiseFault c i s).cs = s.cs := rfl
@[simp] theorem raiseFault_mem (c : FaultCause) (i : Word) (s : State) : (raiseFault c i s).mem = s.mem := rfl
@[simp] theorem raiseFault_params (c : FaultCause) (i : Word) (s : State) : (raiseFault c i s).params = s.params := rfl
@[simp] theorem raiseFault_bus (c : FaultCause) (i : Word) (s : State) : (raiseFault c i s).bus = s.bus := rfl

/-! ### abortCycle -/

@[simp] theorem abortCycle_mar (s w : State) : (abortCycle s w).mar = s.mar := rfl
@[simp] theorem abortCycle_mdr (s w : State) : (abortCycle s w).mdr = s.mdr := rfl
@[simp] theorem abortCycle_pc (s w : State) : (abortCycle s w).pc = s.pc := rfl
@[simp] theorem abortCycle_mbr (s w : State) : (abortCycle s w).mbr = s.mbr := rfl
@[simp] theorem abortCycle_sp (s w : State) : (abortCycle s w).sp = s.sp := rfl
@[simp] theorem abortCycle_lv (s w : State) : (abortCycle s w).lv = s.lv := rfl
@[simp] theorem abortCycle_cpp (s w : State) : (abortCycle s w).cpp = s.cpp := rfl
@[simp] theorem abortCycle_tos (s w : State) : (abortCycle s w).tos = s.tos := rfl
@[simp] theorem abortCycle_opc (s w : State) : (abortCycle s w).opc = s.opc := rfl
@[simp] theorem abortCycle_h (s w : State) : (abortCycle s w).h = s.h := rfl
@[simp] theorem abortCycle_mpc (s w : State) : (abortCycle s w).mpc = s.mpc := rfl
@[simp] theorem abortCycle_mir (s w : State) : (abortCycle s w).mir = s.mir := rfl
@[simp] theorem abortCycle_n (s w : State) : (abortCycle s w).n = s.n := rfl
@[simp] theorem abortCycle_z (s w : State) : (abortCycle s w).z = s.z := rfl
@[simp] theorem abortCycle_fault (s w : State) : (abortCycle s w).fault = w.fault := rfl
@[simp] theorem abortCycle_cs (s w : State) : (abortCycle s w).cs = s.cs := rfl
@[simp] theorem abortCycle_mem (s w : State) : (abortCycle s w).mem = s.mem := rfl
@[simp] theorem abortCycle_params (s w : State) : (abortCycle s w).params = s.params := rfl
@[simp] theorem abortCycle_bus (s w : State) : (abortCycle s w).bus = s.bus := rfl

/-! ### beginCycle -/

@[simp] theorem beginCycle_mar (s : State) : (beginCycle s).mar = s.mar := rfl
@[simp] theorem beginCycle_mdr (s : State) : (beginCycle s).mdr = s.mdr := rfl
@[simp] theorem beginCycle_pc (s : State) : (beginCycle s).pc = s.pc := rfl
@[simp] theorem beginCycle_mbr (s : State) : (beginCycle s).mbr = s.mbr := rfl
@[simp] theorem beginCycle_sp (s : State) : (beginCycle s).sp = s.sp := rfl
@[simp] theorem beginCycle_lv (s : State) : (beginCycle s).lv = s.lv := rfl
@[simp] theorem beginCycle_cpp (s : State) : (beginCycle s).cpp = s.cpp := rfl
@[simp] theorem beginCycle_tos (s : State) : (beginCycle s).tos = s.tos := rfl
@[simp] theorem beginCycle_opc (s : State) : (beginCycle s).opc = s.opc := rfl
@[simp] theorem beginCycle_h (s : State) : (beginCycle s).h = s.h := rfl
@[simp] theorem beginCycle_mpc (s : State) : (beginCycle s).mpc = s.mpc := rfl
@[simp] theorem beginCycle_mir (s : State) : (beginCycle s).mir = fetchMir s := rfl
@[simp] theorem beginCycle_n (s : State) : (beginCycle s).n = s.n := rfl
@[simp] theorem beginCycle_z (s : State) : (beginCycle s).z = s.z := rfl
@[simp] theorem beginCycle_fault (s : State) : (beginCycle s).fault = s.fault := rfl
@[simp] theorem beginCycle_cs (s : State) : (beginCycle s).cs = s.cs := rfl
@[simp] theorem beginCycle_mem (s : State) : (beginCycle s).mem = s.mem := rfl
@[simp] theorem beginCycle_params (s : State) : (beginCycle s).params = s.params := rfl
@[simp] theorem beginCycle_bus (s : State) : (beginCycle s).bus = Buses.idle := rfl

/-! ### endCycle -/

@[simp] theorem endCycle_mar (s : State) : (endCycle s).mar = s.mar := rfl
@[simp] theorem endCycle_mdr (s : State) : (endCycle s).mdr = s.mdr := rfl
@[simp] theorem endCycle_pc (s : State) : (endCycle s).pc = s.pc := rfl
@[simp] theorem endCycle_mbr (s : State) : (endCycle s).mbr = s.mbr := rfl
@[simp] theorem endCycle_sp (s : State) : (endCycle s).sp = s.sp := rfl
@[simp] theorem endCycle_lv (s : State) : (endCycle s).lv = s.lv := rfl
@[simp] theorem endCycle_cpp (s : State) : (endCycle s).cpp = s.cpp := rfl
@[simp] theorem endCycle_tos (s : State) : (endCycle s).tos = s.tos := rfl
@[simp] theorem endCycle_opc (s : State) : (endCycle s).opc = s.opc := rfl
@[simp] theorem endCycle_h (s : State) : (endCycle s).h = s.h := rfl
@[simp] theorem endCycle_mpc (s : State) : (endCycle s).mpc = s.mpc := rfl
@[simp] theorem endCycle_mir (s : State) : (endCycle s).mir = s.mir := rfl
@[simp] theorem endCycle_n (s : State) : (endCycle s).n = s.n := rfl
@[simp] theorem endCycle_z (s : State) : (endCycle s).z = s.z := rfl
@[simp] theorem endCycle_fault (s : State) : (endCycle s).fault = s.fault := rfl
@[simp] theorem endCycle_cs (s : State) : (endCycle s).cs = s.cs := rfl
@[simp] theorem endCycle_mem (s : State) : (endCycle s).mem = s.mem := rfl
@[simp] theorem endCycle_params (s : State) : (endCycle s).params = s.params := rfl
@[simp] theorem endCycle_bus (s : State) : (endCycle s).bus = Buses.idle := rfl

/-! ### placeFetchWord -/

@[simp] theorem placeFetchWord_mar (s : State) (nbits w : Nat) : (placeFetchWord s nbits w).mar = s.mar := rfl
@[simp] theorem placeFetchWord_mdr (s : State) (nbits w : Nat) : (placeFetchWord s nbits w).mdr = s.mdr := rfl
@[simp] theorem placeFetchWord_pc (s : State) (nbits w : Nat) : (placeFetchWord s nbits w).pc = s.pc := rfl
@[simp] theorem placeFetchWord_mbr (s : State) (nbits w : Nat) : (placeFetchWord s nbits w).mbr = s.mbr := rfl
@[simp] theorem placeFetchWord_sp (s : State) (nbits w : Nat) : (placeFetchWord s nbits w).sp = s.sp := rfl
@[simp] theorem placeFetchWord_lv (s : State) (nbits w : Nat) : (placeFetchWord s nbits w).lv = s.lv := rfl
@[simp] theorem placeFetchWord_cpp (s : State) (nbits w : Nat) : (placeFetchWord s nbits w).cpp = s.cpp := rfl
@[simp] theorem placeFetchWord_tos (s : State) (nbits w : Nat) : (placeFetchWord s nbits w).tos = s.tos := rfl
@[simp] theorem placeFetchWord_opc (s : State) (nbits w : Nat) : (placeFetchWord s nbits w).opc = s.opc := rfl
@[simp] theorem placeFetchWord_h (s : State) (nbits w : Nat) : (placeFetchWord s nbits w).h = s.h := rfl
@[simp] theorem placeFetchWord_mpc (s : State) (nbits w : Nat) : (placeFetchWord s nbits w).mpc = s.mpc := rfl
@[simp] theorem placeFetchWord_mir (s : State) (nbits w : Nat) : (placeFetchWord s nbits w).mir = s.mir := rfl
@[simp] theorem placeFetchWord_n (s : State) (nbits w : Nat) : (placeFetchWord s nbits w).n = s.n := rfl
@[simp] theorem placeFetchWord_z (s : State) (nbits w : Nat) : (placeFetchWord s nbits w).z = s.z := rfl
@[simp] theorem placeFetchWord_fault (s : State) (nbits w : Nat) : (placeFetchWord s nbits w).fault = s.fault := rfl
@[simp] theorem placeFetchWord_cs (s : State) (nbits w : Nat) : (placeFetchWord s nbits w).cs = s.cs.set s.mpc.toNat (BitVec.ofNat 64 (w % 2 ^ nbits)) s.mpc.isLt := rfl
@[simp] theorem placeFetchWord_mem (s : State) (nbits w : Nat) : (placeFetchWord s nbits w).mem = s.mem := rfl
@[simp] theorem placeFetchWord_params (s : State) (nbits w : Nat) : (placeFetchWord s nbits w).params = s.params := rfl
@[simp] theorem placeFetchWord_bus (s : State) (nbits w : Nat) : (placeFetchWord s nbits w).bus = s.bus := rfl

end Sys2Proof.Machine
end

