-- ==== Sys2Proof/Laws/Rows.lean ====
section
/-! SUPPORT. What each shared operation behind the rows can do, said once. -/

namespace Sys2Proof.Machine

/-! ### Operands and the ALU -/

theorem invalidB_strict {s : State} (h : s.params.strict = true) (v : BitVec 4) :
    invalidB v s = .next (raiseFault .invalidBSelect (v.setWidth 32) s) := by
  rw [invalidB, if_pos h]

theorem invalidB_permissive {s : State} (h : s.params.strict = false) (v : BitVec 4) :
    invalidB v s = .next (s.driveB 0xFFFFFFFF) := by
  rw [invalidB, if_neg (by simp [h])]

theorem aluStep_mapped {s : State} {code : BitVec 6} {f : AluFn} (h : aluFnOf s.params code = some f) :
    aluStep code s = .next (s.setResult (aluEval f s.h s.bus.b)) := by
  rw [aluStep, h]

theorem aluStep_strict {s : State} {code : BitVec 6} (h : aluFnOf s.params code = none)
    (hs : s.params.strict = true) :
    aluStep code s = .next (raiseFault .invalidAluOp (code.setWidth 32) s) := by
  rw [aluStep, h]; exact if_pos hs

theorem aluStep_permissive {s : State} {code : BitVec 6} (h : aluFnOf s.params code = none)
    (hs : s.params.strict = false) : aluStep code s = .next (s.setResult 0) := by
  rw [aluStep, h]; exact if_neg (by simp [hs])

theorem flagN_eq (r : Word) : flagN r = decide (r ≠ 0) := by
  unfold flagN; rw [bne, Bool.beq_eq_decide_eq, decide_not]

theorem flagZ_eq (r : Word) : flagZ r = decide (r = 0) := by
  unfold flagZ; rw [Bool.beq_eq_decide_eq]

/-! ### Memory accesses -/

theorem memReadByte_inRange {s : State} {a : Nat} (h : a + 1 ≤ s.params.memSize) :
    memReadByte s a = some (Memory.readByte s.mem a) := if_pos h

theorem memReadByte_outOfRange {s : State} {a : Nat} (h : s.params.memSize < a + 1) : memReadByte s a = none :=
  if_neg (Nat.not_le.mpr h)

theorem memReadWord_inRange {s : State} {a : Nat} (h : a + 4 ≤ s.params.memSize) :
    memReadWord s a = some (Memory.readWord s.mem a) := if_pos h

theorem memReadWord_outOfRange {s : State} {a : Nat} (h : s.params.memSize < a + 4) : memReadWord s a = none :=
  if_neg (Nat.not_le.mpr h)

theorem memWriteWord_inRange {s : State} {a : Nat} (h : a + 4 ≤ s.params.memSize) (v : Word) :
    memWriteWord s a v = some (Memory.writeWord s.mem a v) := if_pos h

theorem memWriteWord_outOfRange {s : State} {a : Nat} (h : s.params.memSize < a + 4) (v : Word) :
    memWriteWord s a v = none := if_neg (Nat.not_le.mpr h)

theorem execMemFetch_inRange {s : State} (h : s.pc.toNat + 1 ≤ s.params.memSize) :
    execMemFetch s = .next { s with mbr := Memory.readByte s.mem s.pc.toNat } := by
  rw [execMemFetch, memReadByte_inRange h]

theorem execMemFetch_outOfRange {s : State} (h : s.params.memSize < s.pc.toNat + 1) :
    execMemFetch s = .next (raiseFault .fetchOutOfRange (offsetInfo s.pc.toNat) s) := by
  rw [execMemFetch, memReadByte_outOfRange h]

theorem execMemRd_inRange {s : State} (h : byteOffset s.mar + 4 ≤ s.params.memSize) :
    execMemRd s = .next { s with mdr := Memory.readWord s.mem (byteOffset s.mar) } := by
  rw [execMemRd, memReadWord_inRange h]

theorem execMemRd_outOfRange {s : State} (h : s.params.memSize < byteOffset s.mar + 4) :
    execMemRd s = .next (raiseFault .readOutOfRange (offsetInfo (byteOffset s.mar)) s) := by
  rw [execMemRd, memReadWord_outOfRange h]

theorem execMemWr_inRange {s : State} (h : byteOffset s.mar + 4 ≤ s.params.memSize) :
    execMemWr s = .next { s with mem := Memory.writeWord s.mem (byteOffset s.mar) s.mdr } := by
  rw [execMemWr, memWriteWord_inRange h]

theorem execMemWr_outOfRange {s : State} (h : s.params.memSize < byteOffset s.mar + 4) :
    execMemWr s = .next (raiseFault .writeOutOfRange (offsetInfo (byteOffset s.mar)) s) := by
  rw [execMemWr, memWriteWord_outOfRange h]

/-! ### Running rows -/

@[simp] theorem runRows_nil (s : State) : runRows [] s = .next s := rfl

/-- A row that raises no fault: the rows after it run on its state. -/
theorem runRows_cons {i : Instr} {rest : List Instr} {s t : State} (h : exec i s = .next t) (hf : t.fault = none) :
    runRows (i :: rest) s = runRows rest t := by
  rw [runRows, h]; simp [hf]

/-- A row that raises a fault ends the rows. -/
theorem runRows_cons_fault {i : Instr} {rest : List Instr} {s t : State} (h : exec i s = .next t)
    (hf : t.fault.isSome = true) : runRows (i :: rest) s = .next t := by
  rw [runRows, h]; simp [hf]

/-- Rows that raise no fault: the rows after them run on their state. -/
theorem runRows_append {l l' : List Instr} {s t : State} (h : runRows l s = .next t) (hf : t.fault = none) :
    runRows (l ++ l') s = runRows l' t := by
  induction l generalizing s with
  | nil => cases h; rfl
  | cons i rest ih =>
    rw [List.cons_append]
    rw [runRows] at h ⊢
    split at h
    · rename_i u hu
      split at h
      · rename_i hs; cases h; simp [hf] at hs
      · rename_i hs; simp only [if_neg hs]; exact ih h
    · cases h
    · cases h

/-- Rows that raise a fault end the rows after them too. -/
theorem runRows_append_fault {l l' : List Instr} {s t : State} (h : runRows l s = .next t) (hs : s.fault = none)
    (hf : t.fault.isSome = true) : runRows (l ++ l') s = .next t := by
  induction l generalizing s with
  | nil => cases h; simp [hs] at hf
  | cons i rest ih =>
    rw [List.cons_append]
    rw [runRows] at h ⊢
    split at h
    · rename_i u hu
      split at h
      · rename_i hu'; simp only [if_pos hu']; exact h
      · rename_i hu'; simp only [if_neg hu']; exact ih h (by simpa using hu')
    · cases h
    · cases h

/-! ### Cycle and step -/

theorem commit_running {s w : State} (h : w.fault = none) : commit s w = endCycle w := by
  rw [commit]; simp [h]

theorem commit_faulted {s w : State} (h : w.fault.isSome = true) : commit s w = abortCycle s w := by
  rw [commit, if_pos h]

theorem cycle_of_runRows {s w : State} (h : runRows (decode (fetchMir s)) (beginCycle s) = .next w) :
    cycle s = .next (commit s w) := by
  rw [cycle, h]

theorem step_running {s : State} (h : s.fault = none) : step s = cycle s := by
  rw [step, h]

theorem step_stopped {s : State} {f : FaultRecord} (h : s.fault = some f) : step s = .fault .stopped := by
  rw [step, h]

end Sys2Proof.Machine
end

