-- ==== Sys2Proof/Tests/Slice0.lean ====
section
/-! SUPPORT. The model's own tests. Expected values come from spec/95_test_vectors.md, from the examples of the rules and from
the opcode table; the witnesses at the end meet the hypotheses of the statements. -/

namespace Sys2Proof.Tests

open Sys2Proof Sys2Proof.Machine

/-! ### Helpers -/

/-- The outcome is a next state that passes a check. -/
def ends (o : Host.Outcome State Fault Refusal) (p : State → Bool) : Bool :=
  match o with
  | .next t => p t
  | .fault _ => false
  | .refused _ => false

/-- One step of a state with a word in the control-store entry that MPC names. -/
def run1 (w : Nat) (s : State) : Host.Outcome State Fault Refusal := step (s.withFetchWord 36 w)

/-- The reset state in permissive mode. -/
def permissive : State := { State.reset with params := { defaultParams with strict := false } }

/-- The start memory of 95_test_vectors.md 2.6. -/
def mem26 : Memory :=
  [(8, 0x10), (9, 0x20), (10, 0x30), (11, 0x40), (12, 0x60), (13, 0x60), (14, 0x70), (15, 0x80), (2044, 1), (2045, 2),
   (2046, 3), (2047, 0x5A)]

/-- The reset state with the memory of 2.6. -/
def start26 : State := { State.reset with mem := mem26 }

/-- The start registers of 2.2. -/
def start22 : State :=
  { State.reset with
    mdr := 0x11111111
    pc := 0x22222222
    sp := 0x44444444
    lv := 0x55555555
    cpp := 0x66666666
    tos := 0x77777777
    opc := 0x88888888 }

/-- An ALU row's result and flags for values of H and B. -/
def aluGives (i : Instr) (h b r : Word) (n z : Bool) : Bool :=
  ends (exec i { State.reset with h := h, bus := { Buses.idle with b := b } })
    (fun t => t.bus.r == r && t.n == n && t.z == z)

/-- The C-bus value of a shift row for an ALU result. -/
def shiftGives (i : Instr) (r c : Word) : Bool :=
  ends (exec i { State.reset with bus := { Buses.idle with r := r } }) (fun t => t.bus.c == c)

/-- The FAULT register. -/
def faultIs (t : State) (cause : FaultCause) (info : Word) (mpc : CsAddr) : Bool := t.fault == some ⟨cause, info, mpc⟩

/-! ### Well-formed row lists -/

theorem test_wellFormed_accepts :
    WellFormed [.bSp, .aluBInc, .shNone, .cMar, .cSp, .memRd, .jamNone, .nextAddr 1] = true := by decide

theorem test_wellFormed_refuses_disorder :
    WellFormed [.bSp, .aluBInc, .shNone, .cSp, .cMar, .memRd, .jamNone, .nextAddr 1] = false := by decide

theorem test_wellFormed_refuses_missing_b :
    WellFormed [.aluBInc, .shNone, .cMar, .memRd, .jamNone, .nextAddr 1] = false := by decide

theorem test_wellFormed_refuses_two_b :
    WellFormed [.bSp, .bLv, .aluBInc, .shNone, .cMar, .memRd, .jamNone, .nextAddr 1] = false := by decide

theorem test_wellFormed_refuses_missing_alu :
    WellFormed [.bSp, .shNone, .cMar, .memRd, .jamNone, .nextAddr 1] = false := by decide

theorem test_wellFormed_refuses_missing_shift :
    WellFormed [.bSp, .aluBInc, .cMar, .memRd, .jamNone, .nextAddr 1] = false := by decide

theorem test_wellFormed_refuses_missing_c :
    WellFormed [.bSp, .aluBInc, .shNone, .memRd, .jamNone, .nextAddr 1] = false := by decide

theorem test_wellFormed_refuses_empty_c_beside_member :
    WellFormed [.bSp, .aluBInc, .shNone, .cMar, .cNone, .memRd, .jamNone, .nextAddr 1] = false := by decide

theorem test_wellFormed_refuses_missing_mem :
    WellFormed [.bSp, .aluBInc, .shNone, .cMar, .jamNone, .nextAddr 1] = false := by decide

theorem test_wellFormed_refuses_empty_mem_beside_member :
    WellFormed [.bSp, .aluBInc, .shNone, .cMar, .memRd, .memNone, .jamNone, .nextAddr 1] = false := by decide

theorem test_wellFormed_refuses_missing_jam :
    WellFormed [.bSp, .aluBInc, .shNone, .cMar, .memRd, .nextAddr 1] = false := by decide

theorem test_wellFormed_refuses_empty_jam_beside_member :
    WellFormed [.bSp, .aluBInc, .shNone, .cMar, .memRd, .jamN, .jamNone, .nextAddr 1] = false := by decide

theorem test_wellFormed_refuses_missing_next :
    WellFormed [.bSp, .aluBInc, .shNone, .cMar, .memRd, .jamNone] = false := by decide

theorem test_wellFormed_refuses_two_next :
    WellFormed [.bSp, .aluBInc, .shNone, .cMar, .memRd, .jamNone, .nextAddr 1, .nextAddr 2] = false := by decide

/-! ### Decoding and encoding: words written out from 30_encoding.md R71 and the field tables -/

/-- B=OPC ALU=#62 SH=SLL8 C=- MEM=WR JAM=JMPC NEXT=170: bits 35:27, 26:24, 23:22, 21:16, 15:7, 6:4, 3:0. -/
theorem test_decode_written_out_bits :
    decode 0b010101010_100_01_111110_000000000_100_1000 =
      [.bOpc, .alu62, .shSll8, .cNone, .memWr, .jamMpc, .nextAddr 170] := by decide

/-- One row of each family, bit by bit: B=MBRU ALU=SUB SH=SRL1 C=H MEM=RD JAM=JAMZ NEXT=256. -/
theorem test_decode_one_of_each_family :
    decode 0b100000000_010_10_111111_100000000_010_0011 =
      [.bMbru, .aluSub, .shSrl1, .cH, .memRd, .jamZ, .nextAddr 256] := by decide

/-- 40_decoder.md R91: the all-zero word has all-zero fields. -/
theorem test_decode_zero :
    decode 0 = [.bMdr, .alu0, .shNone, .cNone, .memNone, .jamNone, .nextAddr 0] := by decide

/-- 95_test_vectors.md 2.1, last row: bits 63 to 36 of the container are ignored. -/
theorem test_container_bits_ignored : decode (significant 0xFFFFFFF000000000) = decode 0 := by decide

/-- 95_test_vectors.md E10. -/
theorem test_fields_E10 : fieldsOf 0x0083504A4 = ⟨4, 2, 0x009, 53, 0, 0, 1⟩ := by decide

/-- 30_encoding.md R86. -/
theorem test_encode_R86 :
    encode [.bSp, .aluBInc, .cMar, .cSp, .memRd, .nextAddr 1] = 0x0083504A4 ∧
    encode [.bTos, .aluB, .jamZ, .nextAddr 16] = 0x082140007 ∧
    encode [.b15, .alu0, .nextAddr 511] = 0xFF800000F := by decide

/-- 30_encoding.md R85, R86: NOP NEXT=5 and IFNZ 5. -/
theorem test_assemble_pseudo :
    assemble (Pseudo.nop 5).expand = .ok 0x028180000 ∧ assemble (Pseudo.ifnz 5).expand = .ok 0x029180000 := by
  exact ⟨rfl, rfl⟩

/-- 30_encoding.md R85: IFZ 4 with B=TOS ALU=B. -/
theorem test_pseudo_with_extra_fields :
    (Pseudo.ifz 4).expandWith [.bTos, .aluB] = [.jamZ, .nextAddr 4, .bTos, .aluB] := by decide

/-- 30_encoding.md R83: ALU= and NEXT= are required. -/
theorem test_assemble_requires_alu_and_next :
    assemble [.bMdr, .nextAddr 0] = .error .missingAlu ∧ assemble [.bMdr, .aluH] = .error .missingNext := ⟨rfl, rfl⟩

/-- 70_reset_and_hazards.md R263: a record of 8 bytes, little-endian; fewer bytes are rejected by name. -/
theorem test_decodeBytes :
    decodeBytes [0xA4, 0x04, 0x35, 0x08, 0, 0, 0, 0x80, 7] = .ok (decode 0x0083504A4, [7]) ∧
    decodeBytes [1, 2, 3, 4, 5, 6, 7] = .error .shortRecord := ⟨rfl, rfl⟩

/-- The row a table word names: that of its one field that is not zero. -/
theorem test_decodeTableWord :
    decodeTableWord 40 0x8 = some .bOpc ∧ decodeTableWord 40 0x3F0000 = some .aluSub ∧
    decodeTableWord 40 0x4000000 = some .jamMpc ∧ decodeTableWord 40 (511 * 2 ^ 27) = some (.nextAddr 511) := by decide

/-- No word of bits 35 to 0 is out of the decoder's reach: the last entry of each field list. -/
theorem test_row_lists_are_full :
    bRows.length = 2 ^ 4 ∧ aluRows.length = 2 ^ 6 ∧ shiftRows.length = 2 ^ 2 ∧ destRows.length = 9 ∧
    memRows.length = 3 ∧ jamRows.length = 3 := by decide

/-- A word's decoded rows and its matching rows are the same: each row is in both or in neither. -/
def rowsAgree (w : MicroWord) (rows : List Instr) : Bool :=
  rows.all (fun i => (decode w).contains i == i.matchesWord w)

/-- 30_encoding.md R80, on the words of 95_test_vectors.md E10 and 2.1. -/
theorem test_decoded_rows_match :
    rowsAgree 0x0083504A4 (bRows ++ shiftRows ++ destRows ++ [.cNone]) = true ∧
    rowsAgree 0x0083504A4 (memRows ++ [.memNone] ++ jamRows ++ [.jamNone]) = true ∧
    rowsAgree 0xFFFFFFFFF (bRows ++ shiftRows ++ destRows ++ [.cNone]) = true ∧
    rowsAgree 0xFFFFFFFFF (memRows ++ [.memNone] ++ jamRows ++ [.jamNone]) = true :=
  ⟨by decide, by decide, by decide, by decide⟩

/-! ### The B-bus: 95_test_vectors.md 2.2, one cycle of B=<src> ALU=B C=TOS NEXT=1 -/

theorem test_b_mdr : ends (run1 0x008142000 start22) (fun t => t.tos == 0x11111111 && t.mpc == 1) = true := by decide
theorem test_b_pc : ends (run1 0x008142001 start22) (fun t => t.tos == 0x22222222) = true := by decide
theorem test_b_mbr :
    ends (run1 0x008142002 { start22 with mbr := 0x80 }) (fun t => t.tos == 0xFFFFFF80) = true ∧
    ends (run1 0x008142002 { start22 with mbr := 0x7F }) (fun t => t.tos == 0x7F) = true := by decide
theorem test_b_mbru : ends (run1 0x008142003 { start22 with mbr := 0x80 }) (fun t => t.tos == 0x80) = true := by decide
theorem test_b_sp : ends (run1 0x008142004 start22) (fun t => t.tos == 0x44444444) = true := by decide
theorem test_b_lv : ends (run1 0x008142005 start22) (fun t => t.tos == 0x55555555) = true := by decide
theorem test_b_cpp : ends (run1 0x008142006 start22) (fun t => t.tos == 0x66666666) = true := by decide
theorem test_b_tos : ends (run1 0x008142007 start22) (fun t => t.tos == 0x77777777) = true := by decide
theorem test_b_opc : ends (run1 0x008142008 start22) (fun t => t.tos == 0x88888888) = true := by decide

theorem test_b_invalid_permissive :
    ends (run1 0x008142009 permissive) (fun t => t.tos == 0xFFFFFFFF && t.n && !t.z && t.fault == none) = true ∧
    ends (run1 0x00814200F permissive) (fun t => t.tos == 0xFFFFFFFF && t.fault == none) = true := by decide

/-- B=#12 ALU=H C=TOS NEXT=1 faults although H does not read B. -/
theorem test_b_invalid_strict :
    ends (run1 0x00818200C State.reset)
      (fun t => faultIs t .invalidBSelect 12 0 && t.mpc == 0 && t.mir == 0 && t.tos == 0 && !t.n && !t.z) = true := by
  decide

/-! ### The ALU: 95_test_vectors.md 2.3 -/

theorem test_alu_zero : aluGives .aluZero 0x12345678 0x0F0F0F0F 0 false true = true := by decide
theorem test_alu_one : aluGives .aluOne 0x12345678 0x0F0F0F0F 1 true false = true := by decide
theorem test_alu_minusOne : aluGives .aluMinusOne 0 0 0xFFFFFFFF true false = true := by decide
theorem test_alu_and :
    aluGives .aluAnd 0x12345678 0x0F0F0F0F 0x02040608 true false = true ∧
    aluGives .aluAnd 0x7FFFFFFF 0x80000000 0 false true = true := by decide
theorem test_alu_b : aluGives .aluB 0x7FFFFFFF 0x80000000 0x80000000 true false = true := by decide
theorem test_alu_h : aluGives .aluH 0x7FFFFFFF 0x80000000 0x7FFFFFFF true false = true := by decide
theorem test_alu_notH :
    aluGives .aluNotH 0x12345678 0x0F0F0F0F 0xEDCBA987 true false = true ∧
    aluGives .aluNotH 0xFFFFFFFF 1 0 false true = true := by decide
theorem test_alu_or : aluGives .aluOr 0x12345678 0x0F0F0F0F 0x1F3F5F7F true false = true := by decide
theorem test_alu_notB : aluGives .aluNotB 0x12345678 0x0F0F0F0F 0xF0F0F0F0 true false = true := by decide
theorem test_alu_bInc : aluGives .aluBInc 0x7FFFFFFF 0x80000000 0x80000001 true false = true := by decide
theorem test_alu_bDec :
    aluGives .aluBDec 0 0 0xFFFFFFFF true false = true ∧ aluGives .aluBDec 0xFFFFFFFF 1 0 false true = true := by decide
theorem test_alu_hInc :
    aluGives .aluHInc 0x7FFFFFFF 0x80000000 0x80000000 true false = true ∧
    aluGives .aluHInc 0xFFFFFFFF 1 0 false true = true := by decide
theorem test_alu_negH :
    aluGives .aluNegH 0x12345678 0x0F0F0F0F 0xEDCBA988 true false = true ∧
    aluGives .aluNegH 0 0 0 false true = true := by decide
theorem test_alu_add :
    aluGives .aluAdd 0x12345678 0x0F0F0F0F 0x21436587 true false = true ∧
    aluGives .aluAdd 0xFFFFFFFF 1 0 false true = true := by decide
theorem test_alu_addInc :
    aluGives .aluAddInc 0x12345678 0x0F0F0F0F 0x21436588 true false = true ∧
    aluGives .aluAddInc 0x7FFFFFFF 0x80000000 0 false true = true := by decide
theorem test_alu_sub :
    aluGives .aluSub 0x12345678 0x0F0F0F0F 0xFCDAB897 true false = true ∧
    aluGives .aluSub 0x7FFFFFFF 0x80000000 1 true false = true := by decide

/-- B=MDR ALU=#1 C=TOS JAM=JAMZ NEXT=1: a fault in strict mode, 0 in permissive mode. -/
theorem test_alu_undefined_code :
    ends (run1 0x00A012000 State.reset) (fun t => faultIs t .invalidAluOp 1 0) = true ∧
    ends (run1 0x00A012000 { permissive with tos := 5 })
      (fun t => t.tos == 0 && !t.n && t.z && t.mpc == 0x101 && t.fault == none) = true := by decide

/-- The last undefined code of the table, 62. -/
theorem test_alu_62 :
    ends (run1 0x3E0000 State.reset) (fun t => faultIs t .invalidAluOp 62 0) = true := by decide

/-! ### The shifter: 95_test_vectors.md 2.4 -/

theorem test_sh_none : shiftGives .shNone 0x80000001 0x80000001 = true := by decide
theorem test_sh_sll8 :
    shiftGives .shSll8 0x80000001 0x00000100 = true ∧ shiftGives .shSll8 0x01000000 0 = true := by decide
theorem test_sh_srl1 :
    shiftGives .shSrl1 0x80000001 0x40000000 = true ∧ shiftGives .shSrl1 0xFFFFFFFF 0x7FFFFFFF = true := by decide

/-- B=TOS ALU=B SH=#3 C=H NEXT=1. -/
theorem test_sh_3 :
    ends (run1 0x008D48007 State.reset) (fun t => faultIs t .invalidShift 3 0) = true ∧
    ends (run1 0x008D48007 { permissive with tos := 0x12345678 })
      (fun t => t.h == 0x12345678 && t.n && !t.z && t.mpc == 1) = true := by decide

/-- P3, cycle 2 (row 3 of 2.4 in a cycle): the flags come from the result before the shift. -/
theorem test_flags_from_before_the_shift :
    ends (run1 (0x008000000 + 17 * 2 ^ 16 + 2 * 2 ^ 22 + 2 ^ 15) State.reset) (fun t => t.h == 0 && t.n && !t.z) = true := by
  decide

/-! ### The C-bus: 95_test_vectors.md 2.5 -/

/-- All nine destinations. -/
theorem test_c_all :
    ends (run1 0x00835FF87 { State.reset with tos := 0x41 })
      (fun t =>
        t.mar == 0x42 && t.mdr == 0x42 && t.pc == 0x42 && t.sp == 0x42 && t.lv == 0x42 && t.cpp == 0x42 && t.tos == 0x42
          && t.opc == 0x42 && t.h == 0x42 && t.mbr == 0 && t.n && !t.z && t.mpc == 1) = true := by decide

/-- One destination alone: each C row writes its own register. -/
theorem test_c_single :
    ends (run1 (0x008110000 + 2 ^ 7) State.reset) (fun t => t.mar == 1 && t.mdr == 0) = true ∧
    ends (run1 (0x008110000 + 2 ^ 8) State.reset) (fun t => t.mdr == 1 && t.pc == 0) = true ∧
    ends (run1 (0x008110000 + 2 ^ 9) State.reset) (fun t => t.pc == 1 && t.sp == 0) = true ∧
    ends (run1 (0x008110000 + 2 ^ 10) State.reset) (fun t => t.sp == 1 && t.lv == 0) = true ∧
    ends (run1 (0x008110000 + 2 ^ 11) State.reset) (fun t => t.lv == 1 && t.cpp == 0) = true ∧
    ends (run1 (0x008110000 + 2 ^ 12) State.reset) (fun t => t.cpp == 1 && t.tos == 0) = true ∧
    ends (run1 (0x008110000 + 2 ^ 13) State.reset) (fun t => t.tos == 1 && t.opc == 0) = true ∧
    ends (run1 (0x008110000 + 2 ^ 14) State.reset) (fun t => t.opc == 1 && t.h == 0) = true ∧
    ends (run1 (0x008110000 + 2 ^ 15) State.reset) (fun t => t.h == 1 && t.mar == 0) = true := by decide

/-- Same-cycle operand: B=TOS ALU=B_INC C=TOS,H NEXT=1. -/
theorem test_c_same_cycle_operand :
    ends (run1 0x00835A007 { State.reset with tos := 7, h := 100 }) (fun t => t.tos == 8 && t.h == 8) = true := by decide

/-- E5: ALU=ONE C=MAR,H NEXT=1, and the empty mask ALU=ONE NEXT=1. -/
theorem test_c_E5 :
    ends (run1 0x008118080 State.reset) (fun t => t.mar == 1 && t.h == 1) = true ∧
    ends (run1 0x008110000 State.reset)
      (fun t => t.mar == 0 && t.mdr == 0 && t.pc == 0 && t.sp == 0 && t.lv == 0 && t.cpp == 0 && t.tos == 0 && t.opc == 0
        && t.h == 0 && t.n && !t.z && t.mpc == 1) = true := by decide

/-! ### The memory access controller: 95_test_vectors.md 2.6 -/

theorem test_mem_M1 : ends (run1 0x008180020 { start26 with mar := 511 }) (fun t => t.mdr == 0x5A030201) = true := by decide
theorem test_mem_M2 :
    ends (run1 0x008180010 { start26 with pc := 2047 }) (fun t => t.mbr == 0x5A && t.pc == 2047) = true := by decide
theorem test_mem_M3 :
    ends (run1 0x0081400A7 { start26 with tos := 2 }) (fun t => t.mar == 2 && t.mdr == 0x40302010) = true := by decide
theorem test_mem_M4 :
    ends (run1 0x008140147 { start26 with tos := 0xCAFEBABE, mar := 3 })
      (fun t =>
        t.mdr == 0xCAFEBABE
          && t.mem == [(8, 0x10), (9, 0x20), (10, 0x30), (11, 0x40), (12, 0xBE), (13, 0xBA), (14, 0xFE), (15, 0xCA),
            (2044, 1), (2045, 2), (2046, 3), (2047, 0x5A)]) = true := by decide
theorem test_mem_M5 :
    ends (run1 0x008180060 { start26 with mar := 2, mdr := 0xAAAAAAAA })
      (fun t => t.mdr == 0x40302010 && t.mem == mem26) = true := by decide
theorem test_mem_M6 :
    ends (run1 0x008180050 { start26 with mar := 2, pc := 9, mdr := 0x11223344 })
      (fun t =>
        t.mbr == 0x20 && Memory.readWord t.mem 8 == 0x11223344 && Memory.readByte t.mem 8 == 0x44
          && Memory.readByte t.mem 12 == 0x60) = true := by decide
theorem test_mem_M7 :
    ends (run1 0x008180020 { start26 with mar := 512 })
      (fun t => faultIs t .readOutOfRange 0x800 0 && t.mar == 512 && t.mem == mem26 && t.mir == 0) = true := by decide
theorem test_mem_M8 :
    ends (run1 0x008180020 { start26 with mar := 0x40000000 }) (fun t => faultIs t .readOutOfRange 0 0) = true := by decide
theorem test_mem_M9 :
    ends (run1 0x008180010 { start26 with pc := 2048 }) (fun t => faultIs t .fetchOutOfRange 0x800 0) = true := by decide
theorem test_mem_M10 :
    ends (run1 0x008180040 { start26 with mar := 512 })
      (fun t => faultIs t .writeOutOfRange 0x800 0 && t.mem == mem26) = true := by decide

/-- M7 in permissive mode. -/
theorem test_mem_M7_permissive :
    ends (run1 0x008180020 { permissive with mar := 512 }) (fun t => faultIs t .readOutOfRange 0x800 0) = true := by decide

/-- A write of the value an unlisted byte reads as removes the cell: equal memories are equal lists. -/
theorem test_mem_canonical : Memory.writeByte [(8, 1), (9, 2), (10, 3)] 9 0 = [(8, 1), (10, 3)] := by decide

/-! ### The next-address resolver: 95_test_vectors.md 2.7 and E1, E2 -/

/-- E1: B=MDR ALU=H JAM=JAMN NEXT=5, with H = 1 and with H = 0. -/
theorem test_jam_n :
    ends (run1 0x029180000 { State.reset with h := 1 }) (fun t => t.mpc == 261) = true ∧
    ends (run1 0x029180000 State.reset) (fun t => t.mpc == 5) = true := by decide

/-- JAMZ with next_addr 0x010: B=TOS ALU=B JAM=JAMZ NEXT=16. -/
theorem test_jam_z :
    ends (run1 0x082140007 State.reset) (fun t => t.mpc == 0x110) = true ∧
    ends (run1 0x082140007 { State.reset with tos := 9 }) (fun t => t.mpc == 0x010) = true := by decide

/-- JMPC ORs: next_addr 0x105 with MBR 0x03 gives 0x107. -/
theorem test_jam_mpc :
    ends (run1 (0x105 * 2 ^ 27 + 4 * 2 ^ 24 + 24 * 2 ^ 16) { State.reset with mbr := 3 }) (fun t => t.mpc == 0x107) = true ∧
    ends (run1 (4 * 2 ^ 24 + 24 * 2 ^ 16) { State.reset with mbr := 0x60 }) (fun t => t.mpc == 0x060) = true := by decide

/-- E2: NOP NEXT=5. -/
theorem test_jam_none : ends (run1 0x028180000 { State.reset with h := 1 }) (fun t => t.mpc == 5) = true := by decide

/-- Both flag bits; and fetch then dispatch in one cycle. -/
theorem test_next :
    ends (run1 0x103140007 State.reset) (fun t => t.mpc == 0x120) = true ∧
    ends (run1 0x804180010 { State.reset with pc := 12, mem := [(12, 0x60)] })
      (fun t => t.mbr == 0x60 && t.mpc == 0x160 && !t.n && t.z) = true := by decide

/-! ### Faults: 95_test_vectors.md 2.8, P4, P5 -/

theorem test_fault_F1 : ends (run1 0x008000009 State.reset) (fun t => faultIs t .invalidBSelect 9 0) = true := by decide
theorem test_fault_F2 : ends (run1 0x008C00000 State.reset) (fun t => faultIs t .invalidAluOp 0 0) = true := by decide
theorem test_fault_F3 :
    ends (run1 0x008D80020 { State.reset with mar := 512 }) (fun t => faultIs t .invalidShift 3 0) = true := by decide
theorem test_fault_F4 :
    ends (run1 0x008180030 { State.reset with mar := 512, pc := 2048 })
      (fun t => faultIs t .fetchOutOfRange 0x800 0) = true := by decide

/-- P5, cycle 2: MAR = H + TOS; rd, at CS[1]: the C-bus write is not kept. -/
theorem test_fault_P5 :
    ends (run1 0x0103C00A7 { State.reset with h := 0x100, tos := 0x100, n := true, mpc := 1, mir := 0x00851A000 })
      (fun t =>
        faultIs t .readOutOfRange 0x800 1 && t.mar == 0 && t.h == 0x100 && t.tos == 0x100 && t.n && !t.z && t.mpc == 1
          && t.mir == 0x00851A000) = true := by decide

/-- P4, permissive: the all-zero entry loops at 0. -/
theorem test_P4_permissive :
    ends (step permissive) (fun t => !t.n && t.z && t.mpc == 0 && t.fault == none && t.mdr == 0) = true := by decide

/-- 45_cycle_driver.md R213: a faulted core takes no step. -/
theorem test_faulted_core_stops :
    step { State.reset with fault := some ⟨.invalidAluOp, 0, 0⟩ } = .fault .stopped := rfl

/-! ### Loading: 95_test_vectors.md E3, E4 -/

/-- The image of E3: length 25, bytes b0 to b19 (here 1 to 20) and p0 to p4 (here 0xA0 to 0xA4). -/
def imageE3 : List Byte :=
  [25, 0, 0, 0, 1, 2, 3, 4, 5, 6, 7, 8, 9, 10, 11, 12, 13, 14, 15, 16, 17, 18, 19, 20, 0xA0, 0xA1, 0xA2, 0xA3, 0xA4]

theorem test_image_E3 :
    imageProblem 2048 imageE3 = none ∧ loadedByte (fun _ => 0xEE) imageE3 0 = 1 ∧
    loadedByte (fun _ => 0xEE) imageE3 19 = 20 ∧ loadedByte (fun _ => 0xEE) imageE3 20 = 0xEE ∧
    loadedByte (fun _ => 0xEE) imageE3 1024 = 0xEE ∧ loadedByte (fun _ => 0xEE) imageE3 1025 = 0xA0 ∧
    loadedByte (fun _ => 0xEE) imageE3 1029 = 0xA4 ∧ loadedByte (fun _ => 0xEE) imageE3 1030 = 0xEE := by decide

theorem test_image_E4 : imageProblem 2048 (19 :: List.replicate 30 0) = some .lengthTooSmall := by decide

/-- The largest length that fits a memory of 1030 bytes is 25. -/
theorem test_image_length_bound :
    imageProblem 1030 imageE3 = none ∧ imageProblem 1029 imageE3 = some .lengthTooLarge := by decide

/-- A record of the control-store file, little-endian. -/
theorem test_romRecord : romRecord [0, 0, 0, 0, 0, 0, 0, 0, 0xA4, 0x04, 0x35, 0x08, 0, 0, 0, 0x80] 1 = 0x80000000083504A4 := by
  decide

/-! ### The block interface -/

/-- M6: the fetch is issued before the write. -/
theorem test_ports_M6 :
    (cycleIO (State.withFetchWord { start26 with mar := 2, pc := 9, mdr := 0x11223344 } 36 0x008180050)).map
        (fun io => io.memory) = some [.fetch 9 0x20, .write 8 0x11223344] := by decide

/-- M7: an address outside the memory is never issued. -/
theorem test_ports_M7 :
    (cycleIO (State.withFetchWord { start26 with mar := 512 } 36 0x008180020)).map (fun io => (io.csAddr, io.memory)) =
      some (0, []) := by decide

/-! ### Witnesses: states and operands that meet the hypotheses of each statement -/

theorem ran_of_ends {s : State} (h : ends (step s) (fun t => t.fault == none) = true) : ∃ t, Ran s t := by
  unfold ends at h
  split at h
  · exact ⟨_, ‹_›, by simpa using h⟩
  · cases h
  · cases h

theorem faulted_of_ends {s : State} (h : ends (step s) (fun t => t.fault != none) = true) : ∃ t, Faulted s t := by
  unfold ends at h
  split at h
  · exact ⟨_, ‹_›, by simpa using h⟩
  · cases h
  · cases h

theorem test_witness_DecodingEncodedRowsGivesTheRows : ∃ l : List Instr, WellFormed l = true :=
  ⟨_, test_wellFormed_accepts⟩

theorem test_witness_FieldListOrderCarriesNoMeaning :
    ([.aluB, .nextAddr 3, .cH, .cMar] : List Instr).Perm [.cMar, .nextAddr 3, .cH, .aluB] ∧
    assemble [.aluB, .nextAddr 3, .cH, .cMar] = .ok 0x018148080 := ⟨by decide, rfl⟩

theorem test_witness_AssembledFieldListDecodesToItsFields :
    assemble [.nextAddr 0, .aluH] = .ok 0x180000 ∧ assemble [.b15, .sh3, .aluSub, .jamMpc, .nextAddr 511] = .ok 0xFFCFF000F := by
  exact ⟨rfl, rfl⟩

theorem test_witness_InvalidBRows :
    State.reset.params.strict = true ∧ permissive.params.strict = false := ⟨rfl, rfl⟩

theorem test_witness_AluRowsApplyTheMappedFunction : aluFnOf State.reset.params 63 = some .sub := rfl

theorem test_witness_AluRowsWithoutAFunction :
    (aluFnOf State.reset.params 0 = none ∧ State.reset.params.strict = true) ∧
    (aluFnOf permissive.params 62 = none ∧ permissive.params.strict = false) := ⟨⟨rfl, rfl⟩, ⟨rfl, rfl⟩⟩

/-- NamedAluRowsConstantsAndLogic and NamedAluRowsArithmetic. -/
theorem test_witness_NamedAluRows : State.reset.params.aluCodeMap = defaultAluCodeMap := rfl

theorem test_witness_InvalidShiftRow :
    State.reset.params.strict = true ∧ permissive.params.strict = false := ⟨rfl, rfl⟩

theorem test_witness_BusAndAluRowsFrame :
    Instr.aluH.kind ∈ [FieldKind.bSelect, .aluOp, .shift] ∧ Instr.sh3.kind ≠ .aluOp ∧
    (∃ t, exec .aluH State.reset = .next t) ∧ ∃ t, exec .sh3 State.reset = .next t :=
  ⟨by decide, by decide, ⟨_, rfl⟩, ⟨_, rfl⟩⟩

theorem test_witness_DistributorWritesExactlyTheSelectedRegisters : State.reset.fault = none := rfl

theorem test_witness_FetchRow :
    (2047#32).toNat < State.reset.params.memSize ∧ State.reset.params.memSize ≤ (2048#32).toNat := by decide

/-- ReadRow, WriteRow and WordWrittenThenReadComesBack: the last word of memory and the first one outside. -/
theorem test_witness_ReadRow_WriteRow :
    Memory.wf start26.mem = true ∧ (511#32).toNat * 4 + 4 ≤ start26.params.memSize ∧
    start26.params.memSize < (512#32).toNat * 4 + 4 := by decide

/-- A read at the last word, and a fetch at the last byte. -/
theorem test_witness_MemoryUnitRunsFetchReadWrite :
    let s : State := { start26 with mar := 511, pc := 2047 }
    s.fault = none ∧ s.pc.toNat < s.params.memSize ∧ s.mar.toNat * 4 + 4 ≤ s.params.memSize := by decide

theorem test_witness_FetchedByteIsAByteOfTheWord :
    let s : State := { start26 with mar := 511, pc := 2047 }
    s.pc.toNat = 4 * s.mar.toNat + 3 ∧ s.mar.toNat * 4 + 4 ≤ s.params.memSize := by decide

theorem test_witness_ResolverOrsTheContributions : State.reset.fault = none ∧ State.reset.bus.contrib = 0 := ⟨rfl, rfl⟩

theorem test_witness_RowsWriteFaultOnlyByRaising :
    (∃ t, exec .b9 State.reset = .next t ∧ t.fault ≠ none) ∧ ∃ t, exec .b9 permissive = .next t ∧ t.fault = none :=
  ⟨⟨_, rfl, by decide⟩, ⟨_, rfl, by decide⟩⟩

/-- A no-fault cycle with every field in use: M3's word and a step of E1. -/
theorem test_witness_OnlyAluRowsWriteTheFlags :
    (∃ t, Ran (State.withFetchWord start26 36 0x029180000) t) ∧
    (∃ t, exec .aluOne State.reset = .next t ∧ t.fault = none) ∧ State.reset.fault = none :=
  ⟨ran_of_ends (by decide), ⟨_, rfl, rfl⟩, rfl⟩

theorem test_witness_StepRunsTheDecodedRows :
    ∃ w, runRows (decode (fetchMir permissive)) { permissive with mir := fetchMir permissive, bus := Buses.idle } = .next w :=
  ⟨_, rfl⟩

theorem test_witness_FaultingCycleKeepsNothingElse : ∃ t, Faulted State.reset t := faulted_of_ends (by decide)

theorem test_witness_RecordedFaultIsTheFirstOfTheTable :
    (∃ t, Faulted State.reset t) ∧ (∃ t, Ran permissive t) ∧ firstFault permissive = none :=
  ⟨faulted_of_ends (by decide), ran_of_ends (by decide), by decide⟩

/-- M9 and M10 at the first offset outside the memory; a permissive cycle that faults. -/
theorem test_witness_RangeFaultsHoldInBothModes :
    (let s := State.withFetchWord { start26 with pc := 2048 } 36 0x008180010
     s.fault = none ∧ wantsFetch s = true ∧ s.params.memSize ≤ (pcAfter s).toNat) ∧
    (let s := State.withFetchWord { start26 with mar := 512 } 36 0x008180040
     s.fault = none ∧ wantsWrite s = true ∧ s.params.memSize < (marAfter s).toNat * 4 + 4) ∧
    (let s := State.withFetchWord { permissive with mar := 512 } 36 0x008180020
     wantsRead s = true ∧ s.params.strict = false ∧ ∃ t, Faulted s t) :=
  ⟨by decide, by decide, by decide, rfl, faulted_of_ends (by decide)⟩

theorem test_witness_PermissiveAgreesWithUnfaultedStrict :
    ∃ t, Ran (State.withFetchWord State.reset 36 0x028180000) t := ran_of_ends (by decide)

/-- StepExistsExactlyWhenNotFaulted: both premises. -/
theorem test_witness_StepExistsExactlyWhenNotFaulted :
    State.reset.fault = none ∧ ({ State.reset with fault := some ⟨.invalidAluOp, 0, 0⟩ } : State).fault ≠ none := by decide

/-- CycleFrame, ReadOverwritesTheCBusValue, ReadAndWriteInOneCycle, WriteStoresTheNewMdr and
ControlStoreAndParametersNeverChange. M5's word: RD and WR set, nothing selected. -/
theorem test_witness_cycle_read_write :
    let s := State.withFetchWord { start26 with mar := 2, mdr := 0xAAAAAAAA } 36 0x008180060
    Memory.wf s.mem = true ∧ wantsRead s = true ∧ wantsWrite s = true ∧ wantsFetch s = false ∧
      selectsDest s 0 = false ∧ ∃ t, Ran s t :=
  ⟨by decide, by decide, by decide, by decide, by decide, ran_of_ends (by decide)⟩

/-- SelectedRegistersHoldTheCBusValue. All nine destinations selected, no memory operation (95_test_vectors.md 2.5). -/
theorem test_witness_cycle_all_destinations :
    let s := State.withFetchWord { State.reset with tos := 0x41 } 36 0x00835FF87
    (∀ k < 9, selectsDest s k = true) ∧ wantsRead s = false ∧ ∃ t, Ran s t :=
  ⟨by decide, by decide, ran_of_ends (by decide)⟩

/-- FetchSeesTheOldByteAtTheNewPc and NextAddressUsesThisCyclesFlagsAndByte. Fetch and JMPC in one microinstruction (95_test_vectors.md 2.7). -/
theorem test_witness_cycle_fetch_dispatch :
    let s := State.withFetchWord { State.reset with pc := 12, mem := [(12, 0x60)] } 36 0x804180010
    wantsFetch s = true ∧ (fieldsAt s).jump = 4 ∧ ∃ t, Ran s t :=
  ⟨by decide, by decide, ran_of_ends (by decide)⟩

theorem test_witness_ContainerBitsAreReadByNothing :
    let cs : Vector Container 512 := Vector.replicate 512 0xFFFFFFF000000000
    (∀ a : CsAddr, significant (csEntry { permissive with cs := cs } a) = significant (csEntry permissive a)) ∧
      (∃ t, Ran permissive t) := by
  refine ⟨fun a => ?_, ran_of_ends (by decide)⟩
  simp only [csEntry, permissive, State.reset, Vector.getElem_replicate]
  decide

theorem test_witness_UnselectedSourcesDoNotInfluence :
    let s := State.withFetchWord State.reset 36 0x028180000
    (∃ t, Ran s t) ∧ (fieldsAt s).bSelect ≠ 4 ∧ (fieldsAt s).bSelect ≠ 8 :=
  ⟨ran_of_ends (by decide), by decide, by decide⟩

theorem test_witness_AllZeroEntry :
    (State.reset.fault = none ∧ fetchMir State.reset = 0 ∧ aluFnOf State.reset.params 0 = none ∧
      State.reset.params.strict = true) ∧
    (permissive.fault = none ∧ fetchMir permissive = 0 ∧ aluFnOf permissive.params 0 = none ∧
      permissive.params.strict = false) := by decide

theorem test_witness_PseudoInstructions :
    let s := State.withFetchWord State.reset 36 0x028180000
    s.fault = none ∧ aluFnOf s.params 24 = some .h ∧ fetchMir s = encode (Pseudo.nop 5).expand := by decide

theorem test_witness_PseudoInstructions_branches :
    fetchMir (State.withFetchWord State.reset 36 0x029180000) = encode (Pseudo.ifnz 5).expand ∧
    fetchMir (State.withFetchWord State.reset 36 0x02A180000) = encode (Pseudo.ifz 5).expand ∧
    fetchMir (State.withFetchWord State.reset 36 0x02C180000) = encode (Pseudo.dispatch 5).expand := by decide

/-- TransactionsAreOrderedAndInRange and TransactionsOfAnUnfaultedCycle. -/
theorem test_witness_Transactions :
    let s := State.withFetchWord { start26 with mar := 2, pc := 9, mdr := 0x11223344 } 36 0x008180050
    (∃ io, cycleIO s = some io) ∧ ∃ t, Ran s t := by
  refine ⟨?_, ran_of_ends (by decide)⟩
  exact Option.isSome_iff_exists.mp (by decide)

theorem test_witness_InvariantIsKept :
    Inv permissive ∧ Inv start26 ∧ ∃ t, Ran permissive t := ⟨by decide, by decide, ran_of_ends (by decide)⟩

/-- ResetLoadsTheImages, LoadSucceedsExactlyOnGoodImages and LoadedStateMeetsTheInvariant. E3's image with a control-store file of 4096 bytes. -/
theorem test_witness_boot (memInit : Nat → Byte) :
    boot defaultParams memInit (some (List.replicate 4096 0)) (some imageE3) =
      .ok (bootState defaultParams memInit (List.replicate 4096 0) imageE3) := by
  have h : imageProblem defaultParams.memSize imageE3 = none := by decide
  simp only [boot, List.length_replicate, h, Nat.lt_irrefl, if_false]

theorem test_witness_RunsStopAtHaltOrFaultAndCompose :
    haltNever permissive = false ∧ (∃ t, Ran permissive t) ∧ ∃ t, Faulted State.reset t :=
  ⟨rfl, ran_of_ends (by decide), faulted_of_ends (by decide)⟩

theorem test_witness_OnlyResetLeavesAFault :
    (∃ s : State, s.fault ≠ none) ∧
    hostAct (.reset defaultParams (fun _ => 0) (some (List.replicate 4096 0)) (some imageE3)) none =
      some (bootState defaultParams (fun _ => 0) (List.replicate 4096 0) imageE3) := by
  refine ⟨⟨{ State.reset with fault := some ⟨.invalidAluOp, 0, 0⟩ }, by decide⟩, ?_⟩
  simp only [hostAct, test_witness_boot]

end Sys2Proof.Tests
end

/-! ## Strict and permissive mode (00_scope.md R17) -/

section
namespace Sys2Proof.Machine

/-! ### The rows of a family -/

/-- A B row drives its source, or is an invalid source (41_bus_alu.md R100, R110). -/
theorem exec_bRow {i : Instr} (hk : i.kind = .bSelect) (s : State) :
    exec i s = (bSource s (BitVec.ofNat 4 i.placed.value)).elim
      (invalidB (BitVec.ofNat 4 i.placed.value) s) (fun v => .next (s.driveB v)) := by
  cases i <;> cases hk <;> rfl

/-- An ALU row is the ALU with the row's code (41_bus_alu.md R111). -/
theorem exec_aluRow {i : Instr} (hk : i.kind = .aluOp) (s : State) :
    exec i s = aluStep (BitVec.ofNat 6 i.placed.value) s := by
  cases i <;> cases hk <;> rfl

theorem execSh3_strict {s : State} (h : s.params.strict = true) :
    execSh3 s = .next (raiseFault .invalidShift 3 s) := by
  rw [execSh3, if_pos h]

theorem execSh3_permissive {s : State} (h : s.params.strict = false) : execSh3 s = .next (s.driveC s.bus.r) := by
  rw [execSh3, if_neg (by simp [h])]

/-! ### Unfaulted cycles -/

/-- A cycle keeps its writes exactly where its rows run to their end without a fault (45_cycle_driver.md R214). -/
theorem ran_iff {s t : State} :
    Ran s t ↔ s.fault = none ∧
      ∃ w, runRows (decode (fetchMir s)) (beginCycle s) = .next w ∧ w.fault = none ∧ t = endCycle w := by
  constructor
  · rintro ⟨hstep, ht⟩
    cases hs : s.fault with
    | some f => rw [step_stopped hs] at hstep; cases hstep
    | none =>
      rw [step_running hs, cycle] at hstep
      split at hstep
      · rename_i w hw
        cases hstep
        cases hwf : w.fault with
        | none => exact ⟨rfl, w, hw, hwf, commit_running hwf⟩
        | some f =>
          rw [commit_faulted (by rw [hwf]; rfl), abortCycle_fault, hwf] at ht
          cases ht
      · cases hstep
      · cases hstep
  · rintro ⟨hs, w, hw, hwf, rfl⟩
    rw [Ran, step_running hs, cycle_of_runRows hw, commit_running hwf]
    exact ⟨rfl, hwf⟩

/-! ### The same state in permissive mode -/

/-- The state with `STRICT` false. -/
def State.toPermissive (s : State) : State := { s with params := { s.params with strict := false } }

theorem bSource_toPermissive (s : State) (v : BitVec 4) : bSource s.toPermissive v = bSource s v := rfl

/-- Permissive mode does what `f` does wherever `f` raises no fault. -/
def AgreesInPermissive (f : State → Host.Outcome State Fault Refusal) : Prop :=
  ∀ s t : State, f s = .next t → t.fault = none → f s.toPermissive = .next t.toPermissive

/-- A meaning that goes on with an update `g` where `p` holds and raises a fault elsewhere agrees in permissive mode,
where `p` stays true in that mode and `g` neither reads nor writes `STRICT`. -/
theorem guarded_agreesInPermissive {f : State → Host.Outcome State Fault Refusal} {g : State → State}
    {p : State → Prop} (hrun : ∀ s, p s → f s = .next (g s))
    (hfault : ∀ s, ¬ p s → ∃ cause info, f s = .next (raiseFault cause info s))
    (hp : ∀ s, p s → p s.toPermissive) (hg : ∀ s, g s.toPermissive = (g s).toPermissive) :
    AgreesInPermissive f := by
  intro s t h ht
  by_cases hs : p s
  · rw [hrun s hs] at h
    cases h
    rw [hrun _ (hp s hs), hg]
  · obtain ⟨cause, info, hf⟩ := hfault s hs
    rw [hf] at h
    cases h
    cases ht

/-- A meaning that always goes on. -/
theorem next_agreesInPermissive {f : State → Host.Outcome State Fault Refusal} {g : State → State}
    (hf : ∀ s, f s = .next (g s)) (hg : ∀ s, g s.toPermissive = (g s).toPermissive) : AgreesInPermissive f :=
  guarded_agreesInPermissive (p := fun _ => True) (fun s _ => hf s) (fun _ h => absurd trivial h) (fun _ h => h) hg

/-! ### The rows agree -/

theorem invalidB_agreesInPermissive (v : BitVec 4) : AgreesInPermissive (invalidB v) :=
  guarded_agreesInPermissive (p := fun s => s.params.strict = false) (fun _ h => invalidB_permissive h v)
    (fun _ h => ⟨_, _, invalidB_strict (by simpa using h) v⟩) (fun _ _ => rfl) (fun _ => rfl)

theorem bRow_agreesInPermissive {i : Instr} (hk : i.kind = .bSelect) : AgreesInPermissive (exec i) := by
  intro s t h ht
  rw [exec_bRow hk] at h ⊢
  rw [bSource_toPermissive]
  cases hb : bSource s (BitVec.ofNat 4 i.placed.value) with
  | none => rw [hb] at h; exact invalidB_agreesInPermissive _ _ _ h ht
  | some v => rw [hb] at h; cases h; rfl

theorem aluStep_agreesInPermissive (code : BitVec 6) : AgreesInPermissive (aluStep code) := by
  intro s t h ht
  cases hf : aluFnOf s.params code with
  | some f =>
    rw [aluStep_mapped hf] at h
    cases h
    exact aluStep_mapped (s := s.toPermissive) hf
  | none =>
    cases hs : s.params.strict with
    | true => rw [aluStep_strict hf hs] at h; cases h; cases ht
    | false =>
      rw [aluStep_permissive hf hs] at h
      cases h
      exact aluStep_permissive (s := s.toPermissive) hf rfl

theorem shiftRow_agreesInPermissive {i : Instr} (hk : i.kind = .shift) : AgreesInPermissive (exec i) := by
  cases i <;> cases hk
  case sh3.refl =>
    exact guarded_agreesInPermissive (p := fun s => s.params.strict = false) (fun _ h => execSh3_permissive h)
      (fun _ h => ⟨_, _, execSh3_strict (by simpa using h)⟩) (fun _ _ => rfl) (fun _ => rfl)
  all_goals exact next_agreesInPermissive (fun _ => rfl) (fun _ => rfl)

/-- The range checks ask `MEM_SIZE` alone (60_exceptions.md R236). -/
theorem memRow_agreesInPermissive {i : Instr} (hk : i.kind = .memOps) : AgreesInPermissive (exec i) := by
  cases i <;> cases hk
  case memFetch.refl =>
    exact guarded_agreesInPermissive (p := fun s => s.pc.toNat + 1 ≤ s.params.memSize)
      (fun _ h => execMemFetch_inRange h) (fun _ h => ⟨_, _, execMemFetch_outOfRange (Nat.not_le.mp h)⟩)
      (fun _ h => h) (fun _ => rfl)
  case memRd.refl =>
    exact guarded_agreesInPermissive (p := fun s => byteOffset s.mar + 4 ≤ s.params.memSize)
      (fun _ h => execMemRd_inRange h) (fun _ h => ⟨_, _, execMemRd_outOfRange (Nat.not_le.mp h)⟩)
      (fun _ h => h) (fun _ => rfl)
  case memWr.refl =>
    exact guarded_agreesInPermissive (p := fun s => byteOffset s.mar + 4 ≤ s.params.memSize)
      (fun _ h => execMemWr_inRange h) (fun _ h => ⟨_, _, execMemWr_outOfRange (Nat.not_le.mp h)⟩)
      (fun _ h => h) (fun _ => rfl)
  case memNone.refl => exact next_agreesInPermissive (fun _ => rfl) (fun _ => rfl)

/-- Every row agrees: the C, JAM and NEXT rows always go on; each other family has its own lemma above. -/
theorem exec_agreesInPermissive (i : Instr) : AgreesInPermissive (exec i) := by
  cases hk : i.kind with
  | bSelect => exact bRow_agreesInPermissive hk
  | aluOp => rw [funext (exec_aluRow hk)]; exact aluStep_agreesInPermissive _
  | shift => exact shiftRow_agreesInPermissive hk
  | memOps => exact memRow_agreesInPermissive hk
  | cDest | jump | nextAddr =>
    cases i <;> cases hk <;> exact next_agreesInPermissive (fun _ => rfl) (fun _ => rfl)

/-! ### The cycle agrees -/

theorem runRows_agreesInPermissive (l : List Instr) : AgreesInPermissive (runRows l) := by
  induction l with
  | nil => exact next_agreesInPermissive (fun _ => rfl) (fun _ => rfl)
  | cons i rest ih =>
    intro s t h ht
    rw [runRows] at h
    split at h
    · rename_i u hu
      split at h
      · rename_i huf; cases h; simp [ht] at huf
      · rename_i huf
        have huf : u.fault = none := by simpa using huf
        rw [runRows_cons (exec_agreesInPermissive i _ _ hu huf) huf]
        exact ih _ _ h ht
    · cases h
    · cases h

/-- Settles O38: the rows of the cycle agree one by one, and neither the fetch nor the end of the cycle consults
`STRICT`. -/
theorem permissiveAgreesWithUnfaultedStrict : Obligations.PermissiveAgreesWithUnfaultedStrict := by
  unfold Obligations.PermissiveAgreesWithUnfaultedStrict
  intro s t hran
  obtain ⟨hs, w, hw, hwf, rfl⟩ := ran_iff.mp hran
  exact ran_iff.mpr ⟨hs, w.toPermissive, runRows_agreesInPermissive _ _ _ hw hwf, hwf, rfl⟩

end Sys2Proof.Machine
end

/-! ## The state: what every step keeps, and what no step reads (10_state.md) -/

section
namespace Sys2Proof.Machine

/-! ### What the rows and a cycle can do -/

/-- The rows answer a next state in one of two ways: the first row raises a fault, or the others run on its state. -/
theorem runRows_cons_eq_next_iff {i : Instr} {rest : List Instr} {s t : State} :
    runRows (i :: rest) s = .next t ↔
      ∃ u, exec i s = .next u ∧ (u.fault ≠ none ∧ t = u ∨ u.fault = none ∧ runRows rest u = .next t) := by
  constructor
  · intro h
    rw [runRows] at h
    split at h
    · rename_i u hu
      split at h
      · rename_i hf
        cases h
        exact ⟨t, hu, .inl ⟨Option.isSome_iff_ne_none.mp hf, rfl⟩⟩
      · rename_i hf
        exact ⟨u, hu, .inr ⟨by simpa using hf, h⟩⟩
    · cases h
    · cases h
  · rintro ⟨u, hu, ⟨hf, rfl⟩ | ⟨hf, h⟩⟩
    · exact runRows_cons_fault hu (Option.isSome_iff_ne_none.mpr hf)
    · rw [runRows_cons hu hf, h]

/-- What every row keeps, the rows keep. -/
theorem runRows_induction {P : State → Prop} (hrow : ∀ i s t, P s → exec i s = .next t → P t) {l : List Instr}
    {s t : State} (hs : P s) (h : runRows l s = .next t) : P t := by
  induction l generalizing s with
  | nil => cases h; exact hs
  | cons i rest ih =>
    obtain ⟨u, hu, ⟨-, rfl⟩ | ⟨-, hrest⟩⟩ := runRows_cons_eq_next_iff.mp h
    · exact hrow i s _ hs hu
    · exact ih (hrow i s u hs hu) hrest

/-- A step is the rows of the microinstruction at MPC, kept or taken back (45_cycle_driver.md R211 to R214). -/
theorem step_eq_next_iff {s t : State} :
    step s = .next t ↔
      s.fault = none ∧ ∃ w, runRows (decode (fetchMir s)) (beginCycle s) = .next w ∧ t = commit s w := by
  constructor
  · intro h
    cases hs : s.fault with
    | some f => rw [step_stopped hs] at h; cases h
    | none =>
      rw [step_running hs, cycle] at h
      split at h
      · rename_i w hw; cases h; exact ⟨rfl, w, hw, rfl⟩
      · cases h
      · cases h
  · rintro ⟨hs, w, hw, rfl⟩
    rw [step_running hs, cycle_of_runRows hw]

/-- What a row can do to the control store, the parameters, the flags and the memory. -/
structure RowEffect (s t : State) : Prop where
  cs : t.cs = s.cs
  params : t.params = s.params
  /-- The flags stay, or are those of an ALU result (R37, R131). -/
  flags : t.n = s.n ∧ t.z = s.z ∨ ∃ r : Word, t.n = flagN r ∧ t.z = flagZ r
  /-- The memory stays, or takes one word inside `MEM_SIZE` (R40, R59). -/
  mem : t.mem = s.mem ∨ ∃ (a : Nat) (v : Word), a + 4 ≤ s.params.memSize ∧ t.mem = s.mem.writeWord a v

theorem RowEffect.of_unchanged {s t : State} (hcs : t.cs = s.cs) (hparams : t.params = s.params) (hn : t.n = s.n)
    (hz : t.z = s.z) (hmem : t.mem = s.mem) : RowEffect s t :=
  ⟨hcs, hparams, .inl ⟨hn, hz⟩, .inl hmem⟩

theorem raiseFault_effect (cause : FaultCause) (info : Word) (s : State) : RowEffect s (raiseFault cause info s) :=
  .of_unchanged rfl rfl rfl rfl rfl

theorem setResult_effect (s : State) (r : Word) : RowEffect s (s.setResult r) :=
  ⟨rfl, rfl, .inr ⟨r, rfl, rfl⟩, .inl rfl⟩

theorem invalidB_effect {v : BitVec 4} {s t : State} (h : invalidB v s = .next t) : RowEffect s t := by
  cases hs : s.params.strict with
  | true => rw [invalidB_strict hs] at h; cases h; exact raiseFault_effect _ _ _
  | false => rw [invalidB_permissive hs] at h; cases h; exact .of_unchanged rfl rfl rfl rfl rfl

theorem bRow_effect {i : Instr} (hk : i.kind = .bSelect) {s t : State} (h : exec i s = .next t) : RowEffect s t := by
  rw [exec_bRow hk] at h
  cases hb : bSource s (BitVec.ofNat 4 i.placed.value) with
  | none => rw [hb] at h; exact invalidB_effect h
  | some v => rw [hb] at h; cases h; exact .of_unchanged rfl rfl rfl rfl rfl

theorem aluStep_effect {code : BitVec 6} {s t : State} (h : aluStep code s = .next t) : RowEffect s t := by
  cases hf : aluFnOf s.params code with
  | some f => rw [aluStep_mapped hf] at h; cases h; exact setResult_effect s _
  | none =>
    cases hs : s.params.strict with
    | true => rw [aluStep_strict hf hs] at h; cases h; exact raiseFault_effect _ _ _
    | false => rw [aluStep_permissive hf hs] at h; cases h; exact setResult_effect s _

theorem execSh3_effect {s t : State} (h : execSh3 s = .next t) : RowEffect s t := by
  cases hs : s.params.strict with
  | true => rw [execSh3_strict hs] at h; cases h; exact raiseFault_effect _ _ _
  | false => rw [execSh3_permissive hs] at h; cases h; exact .of_unchanged rfl rfl rfl rfl rfl

theorem execMemFetch_effect {s t : State} (h : execMemFetch s = .next t) : RowEffect s t := by
  rcases Nat.lt_or_ge s.params.memSize (s.pc.toNat + 1) with hr | hr
  · rw [execMemFetch_outOfRange hr] at h; cases h; exact raiseFault_effect _ _ _
  · rw [execMemFetch_inRange hr] at h; cases h; exact .of_unchanged rfl rfl rfl rfl rfl

theorem execMemRd_effect {s t : State} (h : execMemRd s = .next t) : RowEffect s t := by
  rcases Nat.lt_or_ge s.params.memSize (byteOffset s.mar + 4) with hr | hr
  · rw [execMemRd_outOfRange hr] at h; cases h; exact raiseFault_effect _ _ _
  · rw [execMemRd_inRange hr] at h; cases h; exact .of_unchanged rfl rfl rfl rfl rfl

theorem execMemWr_effect {s t : State} (h : execMemWr s = .next t) : RowEffect s t := by
  rcases Nat.lt_or_ge s.params.memSize (byteOffset s.mar + 4) with hr | hr
  · rw [execMemWr_outOfRange hr] at h; cases h; exact raiseFault_effect _ _ _
  · rw [execMemWr_inRange hr] at h; cases h; exact ⟨rfl, rfl, .inl ⟨rfl, rfl⟩, .inr ⟨_, _, hr, rfl⟩⟩

/-- Only an ALU row writes the flags, only a write changes the memory, and no row changes the control store or the
parameters. -/
theorem exec_effect {i : Instr} {s t : State} (h : exec i s = .next t) : RowEffect s t := by
  cases hk : i.kind with
  | bSelect => exact bRow_effect hk h
  | aluOp => exact aluStep_effect (exec_aluRow hk s ▸ h)
  | shift =>
    cases i <;> cases hk
    case sh3.refl => exact execSh3_effect h
    all_goals cases h; exact .of_unchanged rfl rfl rfl rfl rfl
  | memOps =>
    cases i <;> cases hk
    case memFetch.refl => exact execMemFetch_effect h
    case memRd.refl => exact execMemRd_effect h
    case memWr.refl => exact execMemWr_effect h
    case memNone.refl => cases h; exact .of_unchanged rfl rfl rfl rfl rfl
  | cDest | jump | nextAddr =>
    cases i <;> cases hk <;> cases h <;> exact .of_unchanged rfl rfl rfl rfl rfl

/-! ### The invariant -/

/-- The flags of one result are never both 1 (R37). -/
theorem not_flagN_and_flagZ (r : Word) : ¬ (flagN r = true ∧ flagZ r = true) := by
  rw [flagN_eq, flagZ_eq, decide_eq_true_eq, decide_eq_true_eq]
  exact fun h => h.1 h.2

/-- Within a cycle the invariant holds of all but the buses, which the end of the cycle clears. -/
theorem RowEffect.keeps_inv {s t : State} (h : RowEffect s t) (hs : Inv (endCycle s)) : Inv (endCycle t) := by
  obtain ⟨-, hparams, hflags, hmem⟩ := h
  obtain ⟨hwf, hwithin, hp, -, hnz⟩ := hs
  simp only [endCycle_mem, endCycle_params, endCycle_n, endCycle_z] at hwf hwithin hp hnz
  have hflags' : ¬ (t.n = true ∧ t.z = true) := by
    obtain ⟨hn, hz⟩ | ⟨r, hn, hz⟩ := hflags
    · rwa [hn, hz]
    · rw [hn, hz]; exact not_flagN_and_flagZ r
  have hmem' : t.mem.wf = true ∧ t.mem.within s.params.memSize = true := by
    obtain hm | ⟨a, v, ha, hm⟩ := hmem
    · rw [hm]; exact ⟨hwf, hwithin⟩
    · rw [hm]; exact ⟨wf_writeWord hwf a v, within_writeWord hwithin ha v⟩
  exact ⟨hmem'.1, hparams ▸ hmem'.2, hparams ▸ hp, rfl, hflags'⟩

/-- Settles O53: the rows keep the invariant but for the buses, which a cycle that goes on clears; a faulting cycle
changes FAULT alone. -/
theorem invariantIsKept : Obligations.InvariantIsKept := by
  unfold Obligations.InvariantIsKept
  intro s t hinv hstep
  obtain ⟨-, w, hw, rfl⟩ := step_eq_next_iff.mp hstep
  have hbegin : Inv (endCycle (beginCycle s)) := by
    obtain ⟨hwf, hwithin, hp, -, hnz⟩ := hinv
    exact ⟨hwf, hwithin, hp, rfl, hnz⟩
  have hw' : Inv (endCycle w) :=
    runRows_induction (P := fun u => Inv (endCycle u)) (fun _ _ _ hu he => (exec_effect he).keeps_inv hu) hbegin hw
  cases hf : w.fault with
  | none => rw [commit_running hf]; exact hw'
  | some f => rw [commit_faulted (by rw [hf]; rfl)]; exact hinv

/-- Settles O54: every clause computes. -/
theorem resetMeetsTheInvariant : Obligations.ResetMeetsTheInvariant := by
  unfold Obligations.ResetMeetsTheInvariant
  exact ⟨rfl, rfl, by decide, rfl, by decide⟩

/-! ### The control store and the parameters -/

/-- Settles O46: no row changes them, and neither end of a cycle does. -/
theorem controlStoreAndParametersNeverChange : Obligations.ControlStoreAndParametersNeverChange := by
  unfold Obligations.ControlStoreAndParametersNeverChange
  intro s t hstep
  obtain ⟨-, w, hw, rfl⟩ := step_eq_next_iff.mp hstep
  have hkept : w.cs = s.cs ∧ w.params = s.params :=
    runRows_induction (P := fun u => u.cs = s.cs ∧ u.params = s.params)
      (fun _ _ _ hu he => ⟨(exec_effect he).cs.trans hu.1, (exec_effect he).params.trans hu.2⟩)
      ⟨beginCycle_cs s, beginCycle_params s⟩ hw
  cases hf : w.fault with
  | none => rw [commit_running hf]; exact hkept
  | some f => rw [commit_faulted (by rw [hf]; rfl)]; exact ⟨rfl, rfl⟩

end Sys2Proof.Machine
end

/-! ## What no step reads: unselected source registers and container bits (10_state.md R27 to R31, R39) -/

section
namespace Sys2Proof.Machine

/-! ### The rows of a decoded word -/

theorem valueRow_kind {rows : List Instr} {k : FieldKind} (hrows : ∀ i ∈ rows, i.kind = k) {d : Instr}
    (hd : d.kind = k) (v : Nat) : (valueRow rows v d).kind = k := by
  rw [valueRow, List.getD_eq_getElem?_getD]
  cases hv : rows[v]? with
  | none => exact hd
  | some i => exact hrows i (List.mem_of_getElem? hv)

/-- The rows of a field's set bits, where no row stands twice. -/
theorem mem_setBitRows {n : Nat} {v : BitVec n} {i : Instr} {k : Nat} {rows : List Instr} (hnd : rows.Nodup) :
    i ∈ setBitRows v k rows ↔ i ∈ rows ∧ v.getLsbD (k + rows.idxOf i) = true := by
  induction rows generalizing k with
  | nil => simp [setBitRows]
  | cons j rest ih =>
    obtain ⟨hj, hrest⟩ := List.nodup_cons.mp hnd
    have htail : i ∈ setBitRows v (k + 1) rest ↔ i ∈ rest ∧ v.getLsbD (k + (rest.idxOf i + 1)) = true := by
      rw [ih hrest, Nat.add_assoc, Nat.add_comm 1]
    by_cases hij : i = j
    · subst hij
      have hnot : i ∉ setBitRows v (k + 1) rest := fun h => hj (htail.mp h).1
      rw [setBitRows]
      split <;> simp_all
    · rw [List.idxOf_cons_ne _ (Ne.symm hij), List.mem_cons, or_iff_right hij, ← htail, setBitRows]
      split
      · rw [List.mem_cons, or_iff_right hij]
      · rfl

/-- The rows of a bitmask field other than the row of its empty mask. -/
theorem mem_maskRows {n : Nat} {v : BitVec n} {rows : List Instr} {empty i : Instr} (hi : i ≠ empty) :
    i ∈ maskRows v rows empty ↔ i ∈ setBitRows v 0 rows := by
  rw [maskRows]
  split
  · rename_i h; rw [h]; simpa using hi
  · rfl

theorem maskRows_kind {n : Nat} {rows : List Instr} {k : FieldKind} (hrows : ∀ i ∈ rows, i.kind = k)
    (hnd : rows.Nodup) {empty : Instr} (he : empty.kind = k) (v : BitVec n) :
    ∀ i ∈ maskRows v rows empty, i.kind = k := by
  intro i hi
  by_cases hie : i = empty
  · rw [hie]; exact he
  · exact hrows i ((mem_setBitRows hnd).mp ((mem_maskRows hie).mp hi)).1

/-- The rows that a field gives. -/
def fieldRows (f : Fields) : FieldKind → List Instr
  | .bSelect => [valueRow bRows f.bSelect.toNat .bMdr]
  | .aluOp => [valueRow aluRows f.aluOp.toNat .alu0]
  | .shift => [valueRow shiftRows f.shift.toNat .shNone]
  | .cDest => maskRows f.cDest destRows .cNone
  | .memOps => maskRows f.memOps memRows .memNone
  | .jump => maskRows f.jump jamRows .jamNone
  | .nextAddr => [.nextAddr f.nextAddr]

theorem rowsOf_eq_flatMap (f : Fields) :
    rowsOf f = [.bSelect, .aluOp, .shift, .cDest, .memOps, .jump, .nextAddr].flatMap (fieldRows f) := by
  simp [rowsOf, fieldRows]

theorem fieldRows_kind (f : Fields) (k : FieldKind) : ∀ i ∈ fieldRows f k, i.kind = k := by
  cases k with
  | bSelect => exact List.forall_mem_singleton.mpr (valueRow_kind (by decide) rfl _)
  | aluOp => exact List.forall_mem_singleton.mpr (valueRow_kind (by decide) rfl _)
  | shift => exact List.forall_mem_singleton.mpr (valueRow_kind (by decide) rfl _)
  | cDest => exact maskRows_kind (by decide) (by decide) rfl _
  | memOps => exact maskRows_kind (by decide) (by decide) rfl _
  | jump => exact maskRows_kind (by decide) (by decide) rfl _
  | nextAddr => exact List.forall_mem_singleton.mpr rfl

/-- A row of a field is decoded exactly where its field gives it. -/
theorem mem_decode_iff {w : MicroWord} {i : Instr} {k : FieldKind} (hk : i.kind = k) :
    i ∈ decode w ↔ i ∈ fieldRows (fieldsOf w) k := by
  rw [decode, rowsOf_eq_flatMap, List.mem_flatMap]
  constructor
  · rintro ⟨k', -, hi⟩
    rwa [← hk, fieldRows_kind _ k' i hi]
  · exact fun hi => ⟨k, by cases k <;> decide, hi⟩

/-! ### The five source registers -/

/-- The registers that act only as B-bus sources (R27 to R31). -/
inductive SourceReg where
  | sp | lv | cpp | tos | opc
deriving DecidableEq

def SourceReg.get : SourceReg → State → Word
  | .sp => State.sp
  | .lv => State.lv
  | .cpp => State.cpp
  | .tos => State.tos
  | .opc => State.opc

def SourceReg.put (r : SourceReg) (v : Word) (s : State) : State :=
  match r with
  | .sp => { s with sp := v }
  | .lv => { s with lv := v }
  | .cpp => { s with cpp := v }
  | .tos => { s with tos := v }
  | .opc => { s with opc := v }

/-- The `b_select` of the register (R76). -/
def SourceReg.code : SourceReg → BitVec 4
  | .sp => 4
  | .lv => 5
  | .cpp => 6
  | .tos => 7
  | .opc => 8

/-- The bit of `c_dest` of the register (R73). -/
def SourceReg.bit : SourceReg → Nat
  | .sp => 3
  | .lv => 4
  | .cpp => 5
  | .tos => 6
  | .opc => 7

def SourceReg.bRow : SourceReg → Instr
  | .sp => .bSp
  | .lv => .bLv
  | .cpp => .bCpp
  | .tos => .bTos
  | .opc => .bOpc

def SourceReg.cRow : SourceReg → Instr
  | .sp => .cSp
  | .lv => .cLv
  | .cpp => .cCpp
  | .tos => .cTos
  | .opc => .cOpc

theorem exec_sourceBRow (r : SourceReg) (s : State) : exec r.bRow s = .next (s.driveB (r.get s)) := by
  cases r <;> rfl

theorem exec_sourceCRow (r : SourceReg) (s : State) : exec r.cRow s = .next (r.put s.bus.c s) := by
  cases r <;> rfl

/-- A word has the register's B row only where `b_select` names the register. -/
theorem bSelect_of_sourceBRow_mem {r : SourceReg} {w : MicroWord} (h : r.bRow ∈ decode w) :
    (fieldsOf w).bSelect = r.code := by
  have hrow : ∀ b : BitVec 4, r.bRow = valueRow bRows b.toNat .bMdr → b = r.code := by cases r <;> decide
  have hk : r.bRow.kind = .bSelect := by cases r <;> rfl
  exact hrow _ (List.mem_singleton.mp ((mem_decode_iff hk).mp h))

/-- A word has the register's C row exactly where `c_dest` selects the register. -/
theorem sourceCRow_mem_iff {r : SourceReg} {s : State} :
    r.cRow ∈ decode (fetchMir s) ↔ selectsDest s r.bit = true := by
  have hk : r.cRow.kind = .cDest := by cases r <;> rfl
  have hin : r.cRow ∈ destRows := by cases r <;> decide
  have hidx : 0 + destRows.idxOf r.cRow = r.bit := by cases r <;> rfl
  rw [mem_decode_iff hk, fieldRows, mem_maskRows (by cases r <;> decide), mem_setBitRows (by decide), hidx,
    and_iff_right hin]
  rfl

/-! ### A change of what only a B source reads -/

/-- A change of the source registers' values and of the control store. -/
structure SourceChange where
  reg : SourceReg → Word → Word
  cs : Vector Container 512 → Vector Container 512

def SourceChange.apply (c : SourceChange) (s : State) : State :=
  { s with
    sp := c.reg .sp s.sp
    lv := c.reg .lv s.lv
    cpp := c.reg .cpp s.cpp
    tos := c.reg .tos s.tos
    opc := c.reg .opc s.opc
    cs := c.cs s.cs }

/-- Another value in one register. -/
def SourceReg.change (r : SourceReg) (v : Word) : SourceChange where
  reg := Function.update (fun _ => id) r (fun _ => v)
  cs := id

theorem SourceReg.change_apply (r : SourceReg) (v : Word) (s : State) : (r.change v).apply s = r.put v s := by
  cases r <;> rfl

theorem SourceReg.put_put (r : SourceReg) (v v' : Word) (s : State) : r.put v (r.put v' s) = r.put v s := by
  cases r <;> rfl

/-- Another control store. -/
def csChange (cs : Vector Container 512) : SourceChange where
  reg := fun _ => id
  cs := fun _ => cs

theorem SourceChange.get_apply (c : SourceChange) (r : SourceReg) (s : State) :
    r.get (c.apply s) = c.reg r (r.get s) := by
  cases r <;> rfl

theorem SourceChange.apply_put (c : SourceChange) (r : SourceReg) (v : Word) (s : State) :
    c.apply (r.put v s) = r.put (c.reg r v) (c.apply s) := by
  cases r <;> rfl

@[simp] theorem SourceChange.apply_fault (c : SourceChange) (s : State) : (c.apply s).fault = s.fault := rfl

/-- A meaning that does the same before and after the change. -/
def SourceChange.Commutes (c : SourceChange) (f : State → Host.Outcome State Fault Refusal) : Prop :=
  ∀ s t : State, f s = .next t → f (c.apply s) = .next (c.apply t)

/-- The change leaves alone the register that the row reads or writes, if it is a source register. -/
def SourceChange.Spares (c : SourceChange) (i : Instr) : Prop :=
  ∀ r : SourceReg, i = r.bRow ∨ i = r.cRow → c.reg r = id

/-- A meaning that always goes on. -/
theorem SourceChange.next_commutes {c : SourceChange} {f : State → Host.Outcome State Fault Refusal}
    {g : State → State} (hf : ∀ s, f s = .next (g s)) (hg : ∀ s, g (c.apply s) = c.apply (g s)) : c.Commutes f := by
  intro s t h
  rw [hf] at h
  cases h
  rw [hf, hg]

/-- A meaning that goes on with an update `g` where `p` holds and raises a fault elsewhere, all blind to the change. -/
theorem SourceChange.guarded_commutes {c : SourceChange} {f : State → Host.Outcome State Fault Refusal}
    {g : State → State} {p : State → Prop} {cause : FaultCause} {info : State → Word}
    (hrun : ∀ s, p s → f s = .next (g s)) (hfault : ∀ s, ¬ p s → f s = .next (raiseFault cause (info s) s))
    (hp : ∀ s, p (c.apply s) ↔ p s) (hg : ∀ s, g (c.apply s) = c.apply (g s))
    (hinfo : ∀ s, info (c.apply s) = info s) : c.Commutes f := by
  intro s t h
  by_cases hs : p s
  · rw [hrun s hs] at h
    cases h
    rw [hrun _ ((hp s).mpr hs), hg]
  · rw [hfault s hs] at h
    cases h
    rw [hfault _ (mt (hp s).mp hs), hinfo]
    rfl

theorem SourceChange.invalidB_commutes (c : SourceChange) (v : BitVec 4) : c.Commutes (invalidB v) :=
  guarded_commutes (p := fun s => s.params.strict = false) (fun _ h => invalidB_permissive h v)
    (fun _ h => invalidB_strict (by simpa using h) v) (fun _ => Iff.rfl) (fun _ => rfl) (fun _ => rfl)

theorem SourceChange.aluStep_commutes (c : SourceChange) (code : BitVec 6) : c.Commutes (aluStep code) := by
  intro s t h
  cases hf : aluFnOf s.params code with
  | some f => rw [aluStep_mapped hf] at h; cases h; exact aluStep_mapped (s := c.apply s) hf
  | none =>
    cases hs : s.params.strict with
    | true => rw [aluStep_strict hf hs] at h; cases h; exact aluStep_strict (s := c.apply s) hf hs
    | false => rw [aluStep_permissive hf hs] at h; cases h; exact aluStep_permissive (s := c.apply s) hf hs

theorem SourceChange.sourceBRow_commutes {c : SourceChange} {r : SourceReg} (h : c.reg r = id) :
    c.Commutes (exec r.bRow) :=
  next_commutes (exec_sourceBRow r) (fun s => by rw [c.get_apply, h]; rfl)

theorem SourceChange.sourceCRow_commutes {c : SourceChange} {r : SourceReg} (h : c.reg r = id) :
    c.Commutes (exec r.cRow) :=
  next_commutes (exec_sourceCRow r) (fun s => by rw [c.apply_put, h]; rfl)

theorem SourceChange.bRow_commutes {c : SourceChange} {i : Instr} (hk : i.kind = .bSelect) (h : c.Spares i) :
    c.Commutes (exec i) := by
  cases i <;> cases hk
  case bSp.refl => exact sourceBRow_commutes (h .sp (.inl rfl))
  case bLv.refl => exact sourceBRow_commutes (h .lv (.inl rfl))
  case bCpp.refl => exact sourceBRow_commutes (h .cpp (.inl rfl))
  case bTos.refl => exact sourceBRow_commutes (h .tos (.inl rfl))
  case bOpc.refl => exact sourceBRow_commutes (h .opc (.inl rfl))
  case bMdr.refl | bPc.refl | bMbr.refl | bMbru.refl => exact next_commutes (fun _ => rfl) (fun _ => rfl)
  all_goals exact invalidB_commutes c _

theorem SourceChange.cRow_commutes {c : SourceChange} {i : Instr} (hk : i.kind = .cDest) (h : c.Spares i) :
    c.Commutes (exec i) := by
  cases i <;> cases hk
  case cSp.refl => exact sourceCRow_commutes (h .sp (.inr rfl))
  case cLv.refl => exact sourceCRow_commutes (h .lv (.inr rfl))
  case cCpp.refl => exact sourceCRow_commutes (h .cpp (.inr rfl))
  case cTos.refl => exact sourceCRow_commutes (h .tos (.inr rfl))
  case cOpc.refl => exact sourceCRow_commutes (h .opc (.inr rfl))
  all_goals exact next_commutes (fun _ => rfl) (fun _ => rfl)

theorem SourceChange.shiftRow_commutes (c : SourceChange) {i : Instr} (hk : i.kind = .shift) : c.Commutes (exec i) := by
  cases i <;> cases hk
  case sh3.refl =>
    exact guarded_commutes (p := fun s => s.params.strict = false) (fun _ h => execSh3_permissive h)
      (fun _ h => execSh3_strict (by simpa using h)) (fun _ => Iff.rfl) (fun _ => rfl) (fun _ => rfl)
  all_goals exact next_commutes (fun _ => rfl) (fun _ => rfl)

theorem SourceChange.memRow_commutes (c : SourceChange) {i : Instr} (hk : i.kind = .memOps) : c.Commutes (exec i) := by
  cases i <;> cases hk
  case memFetch.refl =>
    exact guarded_commutes (p := fun s => s.pc.toNat + 1 ≤ s.params.memSize) (fun _ h => execMemFetch_inRange h)
      (fun _ h => execMemFetch_outOfRange (Nat.not_le.mp h)) (fun _ => Iff.rfl) (fun _ => rfl) (fun _ => rfl)
  case memRd.refl =>
    exact guarded_commutes (p := fun s => byteOffset s.mar + 4 ≤ s.params.memSize) (fun _ h => execMemRd_inRange h)
      (fun _ h => execMemRd_outOfRange (Nat.not_le.mp h)) (fun _ => Iff.rfl) (fun _ => rfl) (fun _ => rfl)
  case memWr.refl =>
    exact guarded_commutes (p := fun s => byteOffset s.mar + 4 ≤ s.params.memSize) (fun _ h => execMemWr_inRange h)
      (fun _ h => execMemWr_outOfRange (Nat.not_le.mp h)) (fun _ => Iff.rfl) (fun _ => rfl) (fun _ => rfl)
  case memNone.refl => exact next_commutes (fun _ => rfl) (fun _ => rfl)

/-- No row reads the control store, and only its own B and C rows touch a source register. -/
theorem SourceChange.exec_commutes {c : SourceChange} {i : Instr} (h : c.Spares i) : c.Commutes (exec i) := by
  cases hk : i.kind with
  | bSelect => exact bRow_commutes hk h
  | aluOp => rw [funext (exec_aluRow hk)]; exact aluStep_commutes c _
  | shift => exact shiftRow_commutes c hk
  | cDest => exact cRow_commutes hk h
  | memOps => exact memRow_commutes c hk
  | jump | nextAddr => cases i <;> cases hk <;> exact next_commutes (fun _ => rfl) (fun _ => rfl)

/-! ### The cycle from the changed state -/

section
variable {c : SourceChange} {W : Instr → Prop} [DecidablePred W]

/-- The rows from the changed state: the change stays, or a row of `W` has overwritten it. After a fault only the
record counts. -/
theorem SourceChange.runRows_apply (hW : ∀ i, W i → ∀ s, exec i (c.apply s) = exec i s) {l : List Instr}
    (hl : ∀ i ∈ l, W i ∨ c.Commutes (exec i)) {s t : State} (h : runRows l s = .next t) :
    ∃ t', runRows l (c.apply s) = .next t' ∧ t'.fault = t.fault ∧
      (t.fault = none → t' = if ∃ i ∈ l, W i then t else c.apply t) := by
  induction l generalizing s with
  | nil => cases h; exact ⟨_, rfl, rfl, fun _ => by simp⟩
  | cons i rest ih =>
    by_cases hi : W i
    · refine ⟨t, ?_, rfl, fun _ => (if_pos ⟨i, List.mem_cons_self, hi⟩).symm⟩
      rw [runRows, hW i hi]
      exact h
    · obtain ⟨u, hu, hcase⟩ := runRows_cons_eq_next_iff.mp h
      have hu' := (hl i List.mem_cons_self).resolve_left hi s u hu
      rcases hcase with ⟨hf, rfl⟩ | ⟨hf, hrest⟩
      · exact ⟨_, runRows_cons_eq_next_iff.mpr ⟨_, hu', .inl ⟨hf, rfl⟩⟩, rfl, fun hn => absurd hn hf⟩
      · obtain ⟨t', ht', hfault, heq⟩ := ih (fun j hj => hl j (List.mem_cons_of_mem i hj)) hrest
        refine ⟨t', runRows_cons_eq_next_iff.mpr ⟨_, hu', .inr ⟨hf, ht'⟩⟩, hfault, fun hn => ?_⟩
        simp only [heq hn, List.exists_mem_cons_iff, hi, false_or]

/-- The step from the changed state. -/
theorem SourceChange.step_apply (hW : ∀ i, W i → ∀ s, exec i (c.apply s) = exec i s) {s t : State}
    (hfetch : fetchMir (c.apply s) = fetchMir s)
    (hl : ∀ i ∈ decode (fetchMir s), W i ∨ c.Commutes (exec i)) (h : step s = .next t) :
    step (c.apply s) = .next (if t.fault = none ∧ ∃ i ∈ decode (fetchMir s), W i then t else c.apply t) := by
  obtain ⟨hs, w, hw, rfl⟩ := step_eq_next_iff.mp h
  obtain ⟨w', hw', hfault, heq⟩ := runRows_apply hW hl hw
  have hbegin : beginCycle (c.apply s) = c.apply (beginCycle s) := by rw [beginCycle, hfetch]; rfl
  refine step_eq_next_iff.mpr ⟨hs, w', by rw [hbegin, hfetch]; exact hw', ?_⟩
  cases hf : w.fault with
  | none =>
    rw [commit_running hf, commit_running (hfault.trans hf), endCycle_fault, heq hf]
    simp only [hf, true_and]
    split <;> rfl
  | some f =>
    have hsome : w.fault.isSome = true := by rw [hf]; rfl
    rw [commit_faulted hsome, commit_faulted (hfault ▸ hsome), abortCycle_fault, if_neg (by simp [hf])]
    simp only [abortCycle, hfault]
    rfl

end

/-! ### The statements -/

/-- Settles O47: the fetch takes the same word from both control stores, and no row reads or writes the store. -/
theorem containerBitsAreReadByNothing : Obligations.ContainerBitsAreReadByNothing := by
  unfold Obligations.ContainerBitsAreReadByNothing
  intro s t cs hcs hstep
  have h := SourceChange.step_apply (c := csChange cs) (W := fun _ => False) (fun _ hi => hi.elim) (hcs s.mpc)
    (fun _ _ => .inr (SourceChange.exec_commutes fun _ _ => rfl)) hstep
  rwa [if_neg (by simp)] at h

/-- One step with another value in a source register that `b_select` does not name. -/
theorem step_put (r : SourceReg) (v : Word) {s t : State} (hb : (fieldsAt s).bSelect ≠ r.code)
    (h : step s = .next t) :
    step (r.put v s) = .next (if t.fault = none ∧ selectsDest s r.bit = true then t else r.put v t) := by
  have hover : ∀ i, i = r.cRow → ∀ u, exec i ((r.change v).apply u) = exec i u := by
    rintro i rfl u
    rw [exec_sourceCRow, exec_sourceCRow, r.change_apply, r.put_put]
    cases r <;> rfl
  have hrows : ∀ i ∈ decode (fetchMir s), i = r.cRow ∨ (r.change v).Commutes (exec i) := by
    intro i hi
    refine or_iff_not_imp_left.mpr fun hc => SourceChange.exec_commutes ?_
    rintro r' hr'
    have hne : r' ≠ r := by
      rintro rfl
      exact hr'.elim (fun hbr => hb (bSelect_of_sourceBRow_mem (hbr ▸ hi))) hc
    exact Function.update_of_ne (f := fun _ => id) hne (fun _ => v)
  have hstep := SourceChange.step_apply (c := r.change v) (W := (· = r.cRow)) hover (by cases r <;> rfl) hrows h
  simpa only [exists_eq_right, sourceCRow_mem_iff, r.change_apply] using hstep

/-- Settles O48, one register after the other. -/
theorem unselectedSourcesDoNotInfluence : Obligations.UnselectedSourcesDoNotInfluence := by
  unfold Obligations.UnselectedSourcesDoNotInfluence
  intro s t v hstep
  exact ⟨fun hb => step_put .sp v hb hstep, fun hb => step_put .lv v hb hstep, fun hb => step_put .cpp v hb hstep,
    fun hb => step_put .tos v hb hstep, fun hb => step_put .opc v hb hstep⟩

end Sys2Proof.Machine
end

/-! ## Reset with the boot-time load (10_state.md R41; 70_reset_and_hazards.md R260 to R268) -/

section
namespace Sys2Proof.Machine

/-! ### Which images load -/

/-- A good image (R265). -/
theorem imageProblem_eq_none_iff {memSize : Nat} {image : List Byte} :
    imageProblem memSize image = none ↔
      4 ≤ image.length ∧ 20 ≤ imageLength image ∧ 1005 + imageLength image ≤ memSize ∧
        4 + imageLength image ≤ image.length := by
  have hinit : initRegionSize = 20 := rfl
  unfold imageProblem
  constructor
  · intro h
    split_ifs at h
    omega
  · rintro ⟨hfour, hlow, hhigh, hlen⟩
    rw [if_neg (by omega), if_neg (by omega), if_neg (by omega), if_neg (by omega)]

/-- A load leaves a state exactly where both files are there and good, and then it leaves `bootState`. -/
theorem boot_eq_ok_iff {p : Params} {memInit : Nat → Byte} {rom image : Option (List Byte)} {s : State} :
    boot p memInit rom image = .ok s ↔
      ∃ romBytes imageBytes, rom = some romBytes ∧ image = some imageBytes ∧ 4096 ≤ romBytes.length ∧
        imageProblem p.memSize imageBytes = none ∧ s = bootState p memInit romBytes imageBytes := by
  constructor
  · intro h
    unfold boot at h
    split at h
    · cases h
    · rename_i romBytes
      split at h
      · cases h
      · rename_i hrom
        split at h
        · cases h
        · rename_i imageBytes
          split at h
          · cases h
          · rename_i himage
            cases h
            exact ⟨romBytes, imageBytes, rfl, rfl, Nat.not_lt.mp hrom, himage, rfl⟩
  · rintro ⟨romBytes, imageBytes, rfl, rfl, hrom, himage, rfl⟩
    simp only [boot, if_neg (Nat.not_lt.mpr hrom), himage]

/-! ### The control store -/

theorem leValue_lt (l : List Byte) : leValue l < 256 ^ l.length := by
  induction l with
  | nil => simp [leValue]
  | cons b rest ih =>
    have hb := b.isLt
    rw [leValue, List.length_cons, Nat.pow_succ]
    omega

/-- Byte `k` of a little-endian value (R52, R263). -/
theorem leValue_byte (l : List Byte) (k : Nat) : leValue l / 256 ^ k % 256 = (l.getD k 0).toNat := by
  induction l generalizing k with
  | nil => simp [leValue]
  | cons b rest ih =>
    have hb := b.isLt
    rw [leValue]
    cases k with
    | zero => rw [List.getD_cons_zero]; omega
    | succ k =>
      rw [List.getD_cons_succ, ← ih k, Nat.pow_succ', ← Nat.div_div_eq_div_mul,
        show (b.toNat + 256 * leValue rest) / 256 = leValue rest by omega]

/-- Byte `k` of record `i` is byte `8i + k` of the file (R263). -/
theorem romRecord_byte (rom : List Byte) (i : Nat) {k : Nat} (hk : k < 8) :
    (romRecord rom i).extractLsb' (8 * k) 8 = rom.getD (8 * i + k) 0 := by
  have hlt : leValue ((rom.drop (8 * i)).take 8) < 2 ^ 64 :=
    calc leValue ((rom.drop (8 * i)).take 8)
      _ < 256 ^ ((rom.drop (8 * i)).take 8).length := leValue_lt _
      _ ≤ 256 ^ 8 := Nat.pow_le_pow_right (by decide) (List.length_take_le _ _)
      _ = 2 ^ 64 := by decide
  have hbyte : ((rom.drop (8 * i)).take 8).getD k 0 = rom.getD (8 * i + k) 0 := by
    rw [List.getD_eq_getElem?_getD, List.getD_eq_getElem?_getD, List.getElem?_take_of_lt hk, List.getElem?_drop]
  apply BitVec.eq_of_toNat_eq
  rw [romRecord, BitVec.extractLsb'_toNat, BitVec.toNat_ofNat, Nat.mod_eq_of_lt hlt, Nat.shiftRight_eq_div_pow,
    Nat.pow_mul, leValue_byte, hbyte]

theorem bootState_csEntry (p : Params) (memInit : Nat → Byte) (rom image : List Byte) (a : CsAddr) :
    csEntry (bootState p memInit rom image) a = romRecord rom a.toNat := by
  simp only [csEntry, bootState, romImage, Vector.getElem_ofFn]

/-! ### The memory -/

theorem bootState_readByte (p : Params) (memInit : Nat → Byte) (rom image : List Byte) {a : Nat}
    (ha : a < p.memSize) :
    Memory.readByte (bootState p memInit rom image).mem a = loadedByte memInit image a := by
  rw [bootState, readByte_ofBytes, if_pos ha]

/-- The initialization region (R63, R266). -/
theorem loadedByte_init (memInit : Nat → Byte) (image : List Byte) {a : Nat} (ha : a < 20) :
    loadedByte memInit image a = image.getD (4 + a) 0 := if_pos ha

/-- The program region (R63, R266). -/
theorem loadedByte_program (memInit : Nat → Byte) (image : List Byte) {k : Nat} (hk : k < imageLength image - 20) :
    loadedByte memInit image (1025 + k) = image.getD (24 + k) 0 := by
  have hinit : initRegionSize = 20 := rfl
  have hstart : programStart = 1025 := rfl
  rw [loadedByte, if_neg (by omega), if_pos (by omega), hstart, Nat.add_sub_cancel_left]

/-- The rest of the memory (R41). -/
theorem loadedByte_rest (memInit : Nat → Byte) (image : List Byte) {a : Nat} (hlow : 20 ≤ a)
    (ha : a < 1025 ∨ 1025 + (imageLength image - 20) ≤ a) : loadedByte memInit image a = memInit a := by
  have hinit : initRegionSize = 20 := rfl
  have hstart : programStart = 1025 := rfl
  rw [loadedByte, if_neg (by omega), if_neg (by omega)]

/-! ### The statements -/

/-- Settles O57: the loaded memory is canonical and inside `MEM_SIZE` by the way it is listed, and a good image fits
only in a memory of at least 1025 bytes. -/
theorem loadedStateMeetsTheInvariant : Obligations.LoadedStateMeetsTheInvariant := by
  unfold Obligations.LoadedStateMeetsTheInvariant
  intro p memInit rom image s hboot
  obtain ⟨romBytes, imageBytes, -, -, -, himage, rfl⟩ := boot_eq_ok_iff.mp hboot
  obtain ⟨-, hlow, hhigh, -⟩ := imageProblem_eq_none_iff.mp himage
  have hsize : 1025 ≤ p.memSize := by omega
  exact ⟨wf_ofBytes _ _, within_ofBytes _ _, hsize, rfl, by simp [bootState, State.reset]⟩

/-- Settles O55: the control store by its records' bytes, the memory by its regions. -/
theorem resetLoadsTheImages : Obligations.ResetLoadsTheImages := by
  unfold Obligations.ResetLoadsTheImages
  intro p memInit rom image s hboot
  obtain ⟨romBytes, imageBytes, hrom, himg, -, himage, rfl⟩ := boot_eq_ok_iff.mp hboot
  cases hrom
  cases himg
  obtain ⟨-, hlow, hhigh, -⟩ := imageProblem_eq_none_iff.mp himage
  refine ⟨rfl, rfl, rfl, rfl, rfl, rfl, rfl, rfl, rfl, rfl, rfl, rfl, rfl, rfl, rfl, rfl, ?cs, ?init, ?program, ?rest⟩
  case cs =>
    intro a k hk
    rw [bootState_csEntry, romRecord_byte rom a.toNat hk]
  case init =>
    intro k hk
    rw [bootState_readByte _ _ _ _ (by omega), loadedByte_init _ _ hk]
  case program =>
    intro k hk
    change k < imageLength image - 20 at hk
    rw [bootState_readByte _ _ _ _ (by omega), loadedByte_program _ _ hk]
  case rest =>
    intro a ha hlow' hout
    rw [bootState_readByte _ _ _ _ ha, loadedByte_rest _ _ hlow' hout]

end Sys2Proof.Machine
end

/-! ## The memory rows read and write little-endian words (20_memory.md R51 to R56) -/

section
namespace Sys2Proof.Machine

/-- Settles O25: the range depends on MAR and `MEM_SIZE` alone, which the write keeps, so the read is in range too and
takes its word from the memory after the write. -/
theorem wordWrittenThenReadComesBack : Obligations.WordWrittenThenReadComesBack := by
  unfold Obligations.WordWrittenThenReadComesBack
  intro s x hwf hrange
  exact ⟨_, _, execMemWr_inRange hrange, execMemRd_inRange hrange, readWord_writeWord hwf _ _⟩

/-- Settles O26: the fetch is at byte `k` of the word that the read takes, so it is in range where the read is. -/
theorem fetchedByteIsAByteOfTheWord : Obligations.FetchedByteIsAByteOfTheWord := by
  unfold Obligations.FetchedByteIsAByteOfTheWord
  intro s k hk hpc hrange
  have hoffset : s.pc.toNat = byteOffset s.mar + k := by rw [byteOffset]; omega
  have hbyte : Memory.readByte s.mem s.pc.toNat = wordByte (Memory.readWord s.mem (byteOffset s.mar)) k := by
    rw [hoffset, wordByte_readWord _ _ hk]
  exact ⟨_, _, execMemFetch_inRange (by omega), execMemRd_inRange hrange, hbyte⟩

end Sys2Proof.Machine
end

/-! ## The decoder and the opcode table (30_encoding.md R71 to R80) -/

section
namespace Sys2Proof.Machine

/-! ### Fields -/

theorem toNat_extractLsb'_eq_div_mod (w : MicroWord) (lo width : Nat) :
    (w.extractLsb' lo width).toNat = w.toNat / 2 ^ lo % 2 ^ width := by
  rw [BitVec.extractLsb'_toNat, Nat.shiftRight_eq_div_pow]

/-- Settles O4: every field is an extraction. -/
theorem fieldsAreTheirBits : Obligations.FieldsAreTheirBits := by
  unfold Obligations.FieldsAreTheirBits
  intro w
  simp only [fieldsOf, toNat_extractLsb'_eq_div_mod, Nat.pow_zero, Nat.div_one, and_self]

/-! ### What a row matches -/

theorem placed_fits (i : Instr) :
    i.placed.lo + i.placed.width ≤ 36 ∧ i.placed.value < 2 ^ i.placed.width := by
  cases i with
  | nextAddr a => exact ⟨Nat.le_refl 36, a.isLt⟩
  | _ => decide

/-- Bits kept in their place by a mask. -/
theorem and_mul_two_pow (x m lo : Nat) : x &&& (m * 2 ^ lo) = (x / 2 ^ lo &&& m) * 2 ^ lo := by
  apply Nat.eq_of_testBit_eq
  intro k
  by_cases hk : lo ≤ k
  · simp [Nat.testBit_mul_two_pow, Nat.testBit_div_two_pow, hk]
  · simp [Nat.testBit_mul_two_pow, hk]

/-- A row matches the words that have its value in its place (R80). -/
theorem matchesWord_iff (i : Instr) (w : MicroWord) :
    i.matchesWord w = true ↔ w.toNat / 2 ^ i.placed.lo % 2 ^ i.placed.width = i.placed.value := by
  obtain ⟨hlo, hvalue⟩ := placed_fits i
  have hfits : ∀ v < 2 ^ i.placed.width, v * 2 ^ i.placed.lo < 2 ^ 36 := fun v hv =>
    calc v * 2 ^ i.placed.lo
      _ < 2 ^ i.placed.width * 2 ^ i.placed.lo := Nat.mul_lt_mul_of_pos_right hv (Nat.two_pow_pos _)
      _ = 2 ^ (i.placed.lo + i.placed.width) := by rw [← Nat.pow_add, Nat.add_comm]
      _ ≤ 2 ^ 36 := Nat.pow_le_pow_right (by decide) hlo
  have hmask : i.mask.toNat = (2 ^ i.placed.width - 1) * 2 ^ i.placed.lo :=
    Nat.mod_eq_of_lt (hfits _ (Nat.sub_lt (Nat.two_pow_pos _) Nat.one_pos))
  have hpattern : i.pattern.toNat = i.placed.value * 2 ^ i.placed.lo := Nat.mod_eq_of_lt (hfits _ hvalue)
  rw [Instr.matchesWord, beq_iff_eq, ← BitVec.toNat_inj, BitVec.toNat_and, hmask, hpattern, and_mul_two_pow,
    Nat.and_two_pow_sub_one_eq_mod]
  exact Nat.mul_left_inj (Nat.two_pow_pos _).ne'

/-! ### The rows of a single-valued field -/

/-- The rows of a single-valued field stand in the order of their values, so the field's value picks its own row. -/
theorem eq_valueRow_iff {rows : List Instr} (hvalues : rows.map (fun j => j.placed.value) = List.range rows.length)
    {i : Instr} (hi : i ∈ rows) {v : Nat} (hv : v < rows.length) (default : Instr) :
    i = valueRow rows v default ↔ v = i.placed.value := by
  have hvalue : ∀ k (hk : k < rows.length), rows[k].placed.value = k := fun k hk => by
    simpa [hk] using congrArg (·[k]?) hvalues
  obtain ⟨k, hk, rfl⟩ := List.mem_iff_getElem.mp hi
  rw [hvalue k hk, valueRow, List.getD_eq_getElem _ _ hv]
  constructor
  · intro h
    rw [← hvalue v hv, ← h, hvalue k hk]
  · rintro rfl
    rfl

/-- A single-valued field in bits `lo` to `lo + n - 1`. -/
theorem mem_valueRow_iff_matchesWord {rows : List Instr} {lo n : Nat} {i : Instr}
    (hvalues : rows.map (fun j => j.placed.value) = List.range (2 ^ n)) (hi : i ∈ rows)
    (hlo : i.placed.lo = lo) (hwidth : i.placed.width = n) (w : MicroWord) (default : Instr) :
    i ∈ [valueRow rows (w.extractLsb' lo n).toNat default] ↔ i.matchesWord w = true := by
  have hlen : rows.length = 2 ^ n := by simpa using congrArg List.length hvalues
  rw [List.mem_singleton, eq_valueRow_iff (hlen ▸ hvalues) hi (hlen ▸ BitVec.isLt _), matchesWord_iff,
    toNat_extractLsb'_eq_div_mod, hlo, hwidth]

/-! ### The rows of a bitmask field -/

theorem setBitRows_eq_nil_iff {n : Nat} {v : BitVec n} {rows : List Instr} (hnd : rows.Nodup)
    (hlen : rows.length = n) : setBitRows v 0 rows = [] ↔ v = 0#n := by
  rw [List.eq_nil_iff_forall_not_mem]
  constructor
  · intro h
    apply BitVec.eq_of_getLsbD_eq
    intro k hk
    have hclear := h (rows[k]'(hlen ▸ hk))
    rw [mem_setBitRows hnd, hnd.idxOf_getElem, Nat.zero_add] at hclear
    simpa using hclear
  · rintro rfl i hi
    simpa using ((mem_setBitRows hnd).mp hi).2

theorem empty_mem_maskRows_iff {n : Nat} {v : BitVec n} {rows : List Instr} {empty : Instr} (hnd : rows.Nodup)
    (hlen : rows.length = n) (he : empty ∉ rows) : empty ∈ maskRows v rows empty ↔ v = 0#n := by
  rw [← setBitRows_eq_nil_iff hnd hlen, maskRows]
  split
  · rename_i h
    simp [h]
  · rename_i h
    exact iff_of_false (fun hmem => he ((mem_setBitRows hnd).mp hmem).1) h

/-- A row of one bit matches the words with that bit set. -/
theorem matchesWord_iff_getLsbD {i : Instr} {k : Nat} (hi : i.placed = ⟨k, 1, 1⟩) (w : MicroWord) :
    i.matchesWord w = true ↔ w.getLsbD k = true := by
  rw [matchesWord_iff, hi, ← BitVec.testBit_toNat, Nat.testBit_eq_decide_div_mod_eq, decide_eq_true_eq]
  rfl

/-- A bitmask field in bits `lo` to `lo + n - 1`, one row for each bit and one for the empty mask. -/
theorem mem_maskRows_iff_matchesWord {rows : List Instr} {empty i : Instr} {lo n : Nat} (hnd : rows.Nodup)
    (hlen : rows.length = n) (he : empty ∉ rows) (hempty : empty.placed = ⟨lo, n, 0⟩)
    (hi : i = empty ∨ i ∈ rows ∧ i.placed = ⟨lo + rows.idxOf i, 1, 1⟩) (w : MicroWord) :
    i ∈ maskRows (w.extractLsb' lo n) rows empty ↔ i.matchesWord w = true := by
  obtain rfl | ⟨hmem, hplaced⟩ := hi
  · rw [empty_mem_maskRows_iff hnd hlen he, matchesWord_iff, hempty, ← BitVec.toNat_inj,
      toNat_extractLsb'_eq_div_mod, BitVec.toNat_zero]
  · have hbit : rows.idxOf i < n := hlen ▸ List.idxOf_lt_length_of_mem hmem
    have hne : i ≠ empty := fun h => he (h ▸ hmem)
    rw [mem_maskRows hne, mem_setBitRows hnd, matchesWord_iff_getLsbD hplaced, BitVec.getLsbD_extractLsb',
      Nat.zero_add]
    simp [hmem, hbit]

theorem cDest_row {i : Instr} (hk : i.kind = .cDest) :
    i = .cNone ∨ i ∈ destRows ∧ i.placed = ⟨7 + destRows.idxOf i, 1, 1⟩ := by
  cases i <;> cases hk <;> decide

theorem memOps_row {i : Instr} (hk : i.kind = .memOps) :
    i = .memNone ∨ i ∈ memRows ∧ i.placed = ⟨4 + memRows.idxOf i, 1, 1⟩ := by
  cases i <;> cases hk <;> decide

theorem jump_row {i : Instr} (hk : i.kind = .jump) :
    i = .jamNone ∨ i ∈ jamRows ∧ i.placed = ⟨24 + jamRows.idxOf i, 1, 1⟩ := by
  cases i <;> cases hk <;> decide

theorem bSelect_row {i : Instr} (hk : i.kind = .bSelect) :
    i ∈ bRows ∧ i.placed.lo = 0 ∧ i.placed.width = 4 := by
  cases i <;> cases hk <;> decide

theorem aluOp_row {i : Instr} (hk : i.kind = .aluOp) :
    i ∈ aluRows ∧ i.placed.lo = 16 ∧ i.placed.width = 6 := by
  cases i <;> cases hk <;> decide

theorem shift_row {i : Instr} (hk : i.kind = .shift) :
    i ∈ shiftRows ∧ i.placed.lo = 22 ∧ i.placed.width = 2 := by
  cases i <;> cases hk <;> decide

/-! ### The statements -/

/-- The decoder gives exactly the rows whose pattern matches, field by field (R80). -/
theorem mem_decode_iff_matchesWord (w : MicroWord) (i : Instr) : i ∈ decode w ↔ i.matchesWord w = true := by
  rw [mem_decode_iff rfl]
  cases hk : i.kind with
  | bSelect =>
    obtain ⟨hi, hlo, hwidth⟩ := bSelect_row hk
    exact mem_valueRow_iff_matchesWord (by decide) hi hlo hwidth w _
  | aluOp =>
    obtain ⟨hi, hlo, hwidth⟩ := aluOp_row hk
    exact mem_valueRow_iff_matchesWord (by decide) hi hlo hwidth w _
  | shift =>
    obtain ⟨hi, hlo, hwidth⟩ := shift_row hk
    exact mem_valueRow_iff_matchesWord (by decide) hi hlo hwidth w _
  | cDest => exact mem_maskRows_iff_matchesWord (by decide) rfl (by decide) rfl (cDest_row hk) w
  | memOps => exact mem_maskRows_iff_matchesWord (by decide) rfl (by decide) rfl (memOps_row hk) w
  | jump => exact mem_maskRows_iff_matchesWord (by decide) rfl (by decide) rfl (jump_row hk) w
  | nextAddr =>
    cases i <;> cases hk
    rw [fieldRows, List.mem_singleton, Instr.nextAddr.injEq, matchesWord_iff, eq_comm, ← BitVec.toNat_inj, fieldsOf,
      toNat_extractLsb'_eq_div_mod]
    rfl

/-- Settles O5: a row is decoded where its field gives it, and that is where the word has the row's value in its place. -/
theorem decodedRowsAreTheMatchingRows : Obligations.DecodedRowsAreTheMatchingRows := by
  unfold Obligations.DecodedRowsAreTheMatchingRows
  exact mem_decode_iff_matchesWord

/-- Settles O6: six words, each decoded by computation. -/
theorem specWordsDecode : Obligations.SpecWordsDecode := by
  unfold Obligations.SpecWordsDecode
  decide

end Sys2Proof.Machine
end

/-! ## Field lists (30_encoding.md R83) -/

section
namespace Sys2Proof.Machine

/-! ### The order of a field list -/

theorem encode_perm {l l' : List Instr} (h : l.Perm l') : encode l = encode l' := by
  induction h with
  | nil => rfl
  | cons i _ ih => rw [encode, encode, ih]
  | swap i j rest => simp only [encode, ← BitVec.or_assoc, BitVec.or_comm j.pattern]
  | trans _ _ ih ih' => exact ih.trans ih'

theorem countOf_perm {l l' : List Instr} (h : l.Perm l') (k : FieldKind) : countOf k l = countOf k l' :=
  h.countP_eq _

theorem emptyWithMember_perm {l l' : List Instr} (h : l.Perm l') (k : FieldKind) (empty : Instr) :
    emptyWithMember k empty l = emptyWithMember k empty l' := by
  rw [emptyWithMember, emptyWithMember, h.contains_eq, h.any_eq]

/-- The assembler asks how many rows of a field there are and which, and ORs the patterns. -/
theorem assemble_perm {l l' : List Instr} (h : l.Perm l') : assemble l = assemble l' := by
  simp only [assemble, countOf_perm h, emptyWithMember_perm h, encode_perm h]

/-- Settles O7: the assembler gives every rearrangement the same answer. -/
theorem fieldListOrderCarriesNoMeaning : Obligations.FieldListOrderCarriesNoMeaning := by
  unfold Obligations.FieldListOrderCarriesNoMeaning
  intro l l' w hperm h
  rw [← assemble_perm hperm, h]

/-! ### The field lists that assemble -/

theorem countOf_eq_zero_iff {k : FieldKind} {l : List Instr} : countOf k l = 0 ↔ ∀ j ∈ l, j.kind ≠ k := by
  simp [countOf, List.countP_eq_zero]

theorem emptyWithMember_eq_false_iff {k : FieldKind} {empty : Instr} {l : List Instr} :
    emptyWithMember k empty l = false ↔ (empty ∈ l → ∀ j ∈ l, j.kind = k → j = empty) := by
  simp only [emptyWithMember, Bool.and_eq_false_imp, List.contains_iff_mem, List.any_eq_false, Bool.and_eq_true,
    decide_eq_true_eq, Bool.not_eq_true', beq_eq_false_iff_ne, not_and, not_not]

/-- What the assembler accepts (R83, log 15). -/
structure Assembles (l : List Instr) : Prop where
  alu : countOf .aluOp l = 1
  next : countOf .nextAddr l = 1
  b : countOf .bSelect l ≤ 1
  shift : countOf .shift l ≤ 1
  c : .cNone ∈ l → ∀ j ∈ l, j.kind = .cDest → j = .cNone
  mem : .memNone ∈ l → ∀ j ∈ l, j.kind = .memOps → j = .memNone
  jam : .jamNone ∈ l → ∀ j ∈ l, j.kind = .jump → j = .jamNone

theorem ite_error_eq_ok_iff {p : Prop} [Decidable p] {e : AsmReject} {r : Except AsmReject MicroWord}
    {w : MicroWord} : (if p then .error e else r) = .ok w ↔ ¬p ∧ r = .ok w := by
  split <;> simp_all

theorem assemble_eq_ok {l : List Instr} {w : MicroWord} (h : assemble l = .ok w) : Assembles l ∧ w = encode l := by
  simp only [assemble, ite_error_eq_ok_iff, Bool.not_eq_true, emptyWithMember_eq_false_iff, Except.ok.injEq] at h
  obtain ⟨halu, hnext, hb, halu', hshift, hnext', hc, hmem, hjam, rfl⟩ := h
  exact ⟨⟨by omega, by omega, by omega, by omega, hc, hmem, hjam⟩, rfl⟩

/-! ### Rows of other fields do not meet -/

/-- The bits of a field (R71). -/
def fieldBits : FieldKind → MicroWord
  | .bSelect => 0x00000000F
  | .memOps => 0x000000070
  | .cDest => 0x00000FF80
  | .aluOp => 0x0003F0000
  | .shift => 0x000C00000
  | .jump => 0x007000000
  | .nextAddr => 0xFF8000000

theorem mask_and_bits (i : Instr) : i.mask &&& fieldBits i.kind = i.mask := by
  cases i with
  | nextAddr a =>
    change Instr.mask (.nextAddr 0) &&& fieldBits .nextAddr = Instr.mask (.nextAddr 0)
    decide
  | _ => decide

theorem bits_and_bits {k k' : FieldKind} (h : k ≠ k') : fieldBits k &&& fieldBits k' = 0#36 := by
  revert h
  cases k <;> cases k' <;> decide

theorem matchesWord_pattern (i : Instr) : i.matchesWord i.pattern = true := by
  cases i with
  | nextAddr a => exact (Laws.Encoding.nextAddr a).2.1
  | _ => decide

theorem pattern_and_bits (i : Instr) : i.pattern &&& fieldBits i.kind = i.pattern := by
  have h : i.pattern &&& i.mask = i.pattern := beq_iff_eq.mp (matchesWord_pattern i)
  rw [← h, BitVec.and_assoc, mask_and_bits]

/-- A row looks at the bits of its field only. -/
theorem matchesWord_and_bits (i : Instr) (w : MicroWord) :
    i.matchesWord (w &&& fieldBits i.kind) = i.matchesWord w := by
  rw [Instr.matchesWord, Instr.matchesWord, BitVec.and_assoc, BitVec.and_comm (fieldBits i.kind), mask_and_bits]

@[simp] theorem encode_nil : encode [] = 0#36 := rfl

@[simp] theorem encode_singleton (i : Instr) : encode [i] = i.pattern := BitVec.or_zero

/-- Of an encoded list a field holds what the rows of the field give it. -/
theorem encode_and_bits (l : List Instr) (k : FieldKind) :
    encode l &&& fieldBits k = encode (l.filter (fun j => decide (j.kind = k))) := by
  induction l with
  | nil => exact BitVec.zero_and
  | cons j rest ih =>
    rw [encode, BitVec.and_or_distrib_right, ih]
    by_cases hj : j.kind = k
    · rw [List.filter_cons_of_pos (by simpa using hj), encode, ← hj, pattern_and_bits]
    · rw [List.filter_cons_of_neg (by simpa using hj), ← pattern_and_bits, BitVec.and_assoc, bits_and_bits hj,
        BitVec.and_zero, BitVec.zero_or]

/-- A row is decoded from a list's word exactly where it is decoded from the word of the list's rows of its field. -/
theorem mem_decode_encode_filter (i : Instr) (l : List Instr) :
    i ∈ decode (encode l) ↔ i ∈ decode (encode (l.filter (fun j => decide (j.kind = i.kind)))) := by
  rw [mem_decode_iff_matchesWord, mem_decode_iff_matchesWord, ← encode_and_bits, matchesWord_and_bits]

/-! ### The rows of an encoded list -/

/-- In its own field a row's pattern stands for the row alone. -/
theorem fieldRows_pattern (j : Instr) : fieldRows (fieldsOf j.pattern) j.kind = [j] := by
  cases j with
  | nextAddr a =>
    rw [Laws.Encoding.nextAddr_pattern]
    exact congrArg (fun b => [Instr.nextAddr b]) (Laws.Encoding.nextAddr_field a)
  | _ => decide

theorem matchesWord_pattern_iff {i j : Instr} (hk : j.kind = i.kind) : i.matchesWord j.pattern = true ↔ j = i := by
  rw [← mem_decode_iff_matchesWord, mem_decode_iff rfl, ← hk, fieldRows_pattern, List.mem_singleton, eq_comm]

theorem mem_ofKind_iff {i : Instr} {k : FieldKind} {l : List Instr} :
    i ∈ l.filter (fun j => decide (j.kind = k)) ↔ i ∈ l ∧ i.kind = k := by
  rw [List.mem_filter, decide_eq_true_eq]

/-- The rows of a field of which the list has none: those of the word 0. -/
theorem mem_decode_encode_of_absent {i : Instr} {l : List Instr} (h : ∀ j ∈ l, j.kind ≠ i.kind) :
    i ∈ decode (encode l) ↔ i ∈ decode 0 := by
  have hnone : l.filter (fun j => decide (j.kind = i.kind)) = [] :=
    List.filter_eq_nil_iff.mpr fun j hj => by simpa using h j hj
  rw [mem_decode_encode_filter, hnone, encode]

/-- The rows of a field of which the list has one row. -/
theorem mem_decode_encode_of_single {i : Instr} {l : List Instr} (h : countOf i.kind l = 1) :
    i ∈ decode (encode l) ↔ i ∈ l := by
  rw [countOf, List.countP_eq_length_filter, List.length_eq_one_iff] at h
  obtain ⟨j, hj⟩ := h
  have hjk : j.kind = i.kind := (mem_ofKind_iff.mp (hj ▸ List.mem_singleton_self j)).2
  have hmem : i ∈ l ↔ i ∈ [j] := by rw [← hj, mem_ofKind_iff, and_iff_left rfl]
  rw [mem_decode_encode_filter, hj, hmem, encode_singleton, mem_decode_iff_matchesWord, matchesWord_pattern_iff hjk,
    List.mem_singleton, eq_comm]

/-- The row of a set bit is decoded exactly where the list has it. -/
theorem mem_decode_encode_of_bit {i : Instr} {k : Nat} (hi : i.placed = ⟨k, 1, 1⟩) (l : List Instr) :
    i ∈ decode (encode l) ↔ i ∈ l := by
  have hor : ∀ l, i.matchesWord (encode l) = true ↔ ∃ j ∈ l, i.matchesWord j.pattern = true := by
    simp only [matchesWord_iff_getLsbD hi]
    intro l
    induction l with
    | nil => simp
    | cons j rest ih => rw [encode, BitVec.getLsbD_or, Bool.or_eq_true, ih, List.exists_mem_cons_iff]
  rw [mem_decode_encode_filter, mem_decode_iff_matchesWord, hor]
  constructor
  · rintro ⟨j, hj, hmatch⟩
    obtain ⟨hjl, hjk⟩ := mem_ofKind_iff.mp hj
    exact (matchesWord_pattern_iff hjk).mp hmatch ▸ hjl
  · exact fun h => ⟨i, mem_ofKind_iff.mpr ⟨h, rfl⟩, matchesWord_pattern i⟩

/-- A row of pattern 0 is decoded exactly where the list has no other row of its field. -/
theorem mem_decode_encode_of_zero {i : Instr} (hi : i.pattern = 0#36) (l : List Instr) :
    i ∈ decode (encode l) ↔ ∀ j ∈ l, j.kind = i.kind → j = i := by
  have hor : ∀ l, i.matchesWord (encode l) = true ↔ ∀ j ∈ l, i.matchesWord j.pattern = true := by
    simp only [Instr.matchesWord, hi, beq_iff_eq]
    intro l
    induction l with
    | nil => simp
    | cons j rest ih =>
      rw [encode, BitVec.and_or_distrib_right, BitVec.or_eq_zero_iff, ih, List.forall_mem_cons]
  rw [mem_decode_encode_filter, mem_decode_iff_matchesWord, hor]
  constructor
  · exact fun h j hj hjk => (matchesWord_pattern_iff hjk).mp (h j (mem_ofKind_iff.mpr ⟨hj, hjk⟩))
  · intro h j hj
    obtain ⟨hjl, hjk⟩ := mem_ofKind_iff.mp hj
    exact (matchesWord_pattern_iff hjk).mpr (h j hjl hjk)

/-- A bitmask field of which the list has a row: the row of the empty mask alone, or rows of set bits. -/
theorem mem_decode_encode_of_mask {i empty : Instr} {rows : List Instr} {lo : Nat} {l : List Instr}
    (hi : i = empty ∨ i ∈ rows ∧ i.placed = ⟨lo + rows.idxOf i, 1, 1⟩) (hzero : empty.pattern = 0#36)
    (hsome : ∃ j ∈ l, j.kind = i.kind) (halone : empty ∈ l → ∀ j ∈ l, j.kind = empty.kind → j = empty) :
    i ∈ decode (encode l) ↔ i ∈ l := by
  obtain rfl | ⟨-, hbit⟩ := hi
  · obtain ⟨j, hj, hjk⟩ := hsome
    rw [mem_decode_encode_of_zero hzero]
    exact ⟨fun h => h j hj hjk ▸ hj, halone⟩
  · exact mem_decode_encode_of_bit hbit l

/-- A field of an assembled list that has a row of it. -/
theorem Assembles.mem_decode_iff_of_present {l : List Instr} (h : Assembles l) {i : Instr}
    (hsome : ∃ j ∈ l, j.kind = i.kind) : i ∈ decode (encode l) ↔ i ∈ l := by
  have hcount : countOf i.kind l ≠ 0 := by
    obtain ⟨j, hj, hjk⟩ := hsome
    exact fun hzero => countOf_eq_zero_iff.mp hzero j hj hjk
  cases hk : i.kind with
  | bSelect => exact mem_decode_encode_of_single (by have := h.b; rw [hk] at hcount ⊢; omega)
  | aluOp => exact mem_decode_encode_of_single (hk ▸ h.alu)
  | shift => exact mem_decode_encode_of_single (by have := h.shift; rw [hk] at hcount ⊢; omega)
  | cDest => exact mem_decode_encode_of_mask (cDest_row hk) (by decide) hsome h.c
  | memOps => exact mem_decode_encode_of_mask (memOps_row hk) (by decide) hsome h.mem
  | jump => exact mem_decode_encode_of_mask (jump_row hk) (by decide) hsome h.jam
  | nextAddr => exact mem_decode_encode_of_single (hk ▸ h.next)

/-- A field that an assembled list leaves out. -/
theorem Assembles.mem_decode_iff_of_absent {l : List Instr} (h : Assembles l) {i : Instr}
    (hnone : ∀ j ∈ l, j.kind ≠ i.kind) :
    i ∈ decode (encode l) ↔ i ∈ [Instr.bMdr, .shNone, .cNone, .memNone, .jamNone] := by
  have hcount : countOf i.kind l = 0 := countOf_eq_zero_iff.mpr hnone
  have halu : i ≠ .alu0 := by rintro rfl; exact absurd (h.alu.symm.trans hcount) (by decide)
  have hnext : i ≠ .nextAddr 0#9 := by rintro rfl; exact absurd (h.next.symm.trans hcount) (by decide)
  have hzero : decode 0 = [.bMdr, .alu0, .shNone, .cNone, .memNone, .jamNone, .nextAddr 0] := by decide
  rw [mem_decode_encode_of_absent hnone, hzero]
  simp [halu, hnext]

/-- Settles O8: a field that the list has decodes to its rows in the list, a field that it leaves out to its default. -/
theorem assembledFieldListDecodesToItsFields : Obligations.AssembledFieldListDecodesToItsFields := by
  unfold Obligations.AssembledFieldListDecodesToItsFields
  intro l w hw i
  obtain ⟨hl, rfl⟩ := assemble_eq_ok hw
  by_cases hnone : ∀ j ∈ l, j.kind ≠ i.kind
  · have hi : i ∉ l := fun hi => hnone i hi rfl
    rw [hl.mem_decode_iff_of_absent hnone, or_iff_right hi, and_iff_left hnone]
  · have hsome : ∃ j ∈ l, j.kind = i.kind := by simpa using hnone
    rw [hl.mem_decode_iff_of_present hsome, or_iff_left fun h => hnone h.2]

end Sys2Proof.Machine
end

/-! ## Every row answers a next state (30_encoding.md R80; 10_state.md R36, R39, R44) -/

section
namespace Sys2Proof.Machine

/-- The outcome is a next state with the same MIR. -/
def AnswersKeepingMir (s : State) (o : Host.Outcome State Fault Refusal) : Prop :=
  ∃ t : State, o = .next t ∧ t.mir = s.mir

theorem invalidB_answers (v : BitVec 4) (s : State) : AnswersKeepingMir s (invalidB v s) := by
  cases hs : s.params.strict with
  | true => exact ⟨_, invalidB_strict hs v, rfl⟩
  | false => exact ⟨_, invalidB_permissive hs v, rfl⟩

theorem bRow_answers {i : Instr} (hk : i.kind = .bSelect) (s : State) : AnswersKeepingMir s (exec i s) := by
  rw [exec_bRow hk]
  cases bSource s (BitVec.ofNat 4 i.placed.value) with
  | none => exact invalidB_answers _ s
  | some v => exact ⟨_, rfl, rfl⟩

theorem aluStep_answers (code : BitVec 6) (s : State) : AnswersKeepingMir s (aluStep code s) := by
  cases hf : aluFnOf s.params code with
  | some f => exact ⟨_, aluStep_mapped hf, rfl⟩
  | none =>
    cases hs : s.params.strict with
    | true => exact ⟨_, aluStep_strict hf hs, rfl⟩
    | false => exact ⟨_, aluStep_permissive hf hs, rfl⟩

theorem execSh3_answers (s : State) : AnswersKeepingMir s (execSh3 s) := by
  cases hs : s.params.strict with
  | true => exact ⟨_, execSh3_strict hs, rfl⟩
  | false => exact ⟨_, execSh3_permissive hs, rfl⟩

theorem memRow_answers {i : Instr} (hk : i.kind = .memOps) (s : State) : AnswersKeepingMir s (exec i s) := by
  cases i <;> cases hk
  case memFetch.refl =>
    rcases Nat.lt_or_ge s.params.memSize (s.pc.toNat + 1) with hr | hr
    · exact ⟨_, execMemFetch_outOfRange hr, rfl⟩
    · exact ⟨_, execMemFetch_inRange hr, rfl⟩
  case memRd.refl =>
    rcases Nat.lt_or_ge s.params.memSize (byteOffset s.mar + 4) with hr | hr
    · exact ⟨_, execMemRd_outOfRange hr, rfl⟩
    · exact ⟨_, execMemRd_inRange hr, rfl⟩
  case memWr.refl =>
    rcases Nat.lt_or_ge s.params.memSize (byteOffset s.mar + 4) with hr | hr
    · exact ⟨_, execMemWr_outOfRange hr, rfl⟩
    · exact ⟨_, execMemWr_inRange hr, rfl⟩
  case memNone.refl => exact ⟨_, rfl, rfl⟩

theorem exec_answers (i : Instr) (s : State) : AnswersKeepingMir s (exec i s) := by
  cases hk : i.kind with
  | bSelect => exact bRow_answers hk s
  | aluOp => rw [exec_aluRow hk]; exact aluStep_answers _ s
  | shift =>
    cases i <;> cases hk
    case sh3.refl => exact execSh3_answers s
    all_goals exact ⟨_, rfl, rfl⟩
  | memOps => exact memRow_answers hk s
  | cDest | jump | nextAddr => cases i <;> cases hk <;> exact ⟨_, rfl, rfl⟩

/-- Settles O29: that there is a next state, and its MIR, family by family; the control store and the parameters by
what a row can do. -/
theorem everyRowAnswersANextState : Obligations.EveryRowAnswersANextState := by
  unfold Obligations.EveryRowAnswersANextState
  intro i s
  obtain ⟨t, ht, hmir⟩ := exec_answers i s
  exact ⟨t, ht, (exec_effect ht).cs, (exec_effect ht).params, hmir⟩

end Sys2Proof.Machine
end

/-! ## The pseudo-instructions (30_encoding.md R85) -/

section
namespace Sys2Proof.Machine

/-! ### The words of the expansions -/

theorem encode_append (l l' : List Instr) : encode (l ++ l') = encode l ||| encode l' := by
  induction l with
  | nil => exact BitVec.zero_or.symm
  | cons i rest ih => rw [List.cons_append, encode, encode, ih, BitVec.or_assoc]

/-- Putting an address into a word whose address field is 0. -/
theorem fieldsOf_or_nextAddr {w : MicroWord} (a : CsAddr) (hw : (fieldsOf w).nextAddr = 0#9) :
    fieldsOf (w ||| (Instr.nextAddr a).pattern) = { fieldsOf w with nextAddr := a } := by
  have hlow : ∀ lo n, lo + n ≤ 27 → (a.setWidth 36 <<< 27 : MicroWord).extractLsb' lo n = 0#n := by
    intro lo n hn
    apply BitVec.eq_of_getLsbD_eq
    intro k hk
    have hk27 : lo + k < 27 := by omega
    simp [hk27]
  replace hw : w.extractLsb' 27 9 = 0#9 := hw
  simp only [fieldsOf, Laws.Encoding.nextAddr_pattern, BitVec.extractLsb'_or, Laws.Encoding.nextAddr_field, hw,
    hlow 0 4 (by decide), hlow 4 3 (by decide), hlow 7 9 (by decide), hlow 16 6 (by decide), hlow 22 2 (by decide),
    hlow 24 3 (by decide), BitVec.or_zero, BitVec.zero_or]

/-- A last field `NEXT=` gives its row in place of `NEXT=0`. -/
theorem decode_encode_append_nextAddr {l rows : List Instr} (a : CsAddr)
    (hl : decode (encode l) = rows ++ [Instr.nextAddr 0#9]) :
    decode (encode (l ++ [Instr.nextAddr a])) = rows ++ [Instr.nextAddr a] := by
  rw [decode, rowsOf] at hl
  obtain ⟨hrows, hzero⟩ := List.append_singleton_inj.mp hl
  injection hzero with hzero
  rw [encode_append, encode_singleton, decode, fieldsOf_or_nextAddr a hzero, rowsOf, ← hrows]

/-- The rows of a word that passes H through the ALU, writes no register, and has one JAM row. -/
def testOfHRows (jam : Instr) (a : CsAddr) : List Instr :=
  [.bMdr, .aluH, .shNone, .cNone, .memNone, jam] ++ [Instr.nextAddr a]

theorem decode_nop (a : CsAddr) : decode (encode (Pseudo.nop a).expand) = testOfHRows .jamNone a :=
  decode_encode_append_nextAddr (l := [.bMdr, .aluH, .cNone, .memNone, .jamNone]) a (by decide)

theorem decode_goto (a : CsAddr) : decode (encode (Pseudo.goto a).expand) = testOfHRows .jamNone a := decode_nop a

theorem decode_ifnz (a : CsAddr) : decode (encode (Pseudo.ifnz a).expand) = testOfHRows .jamN a :=
  decode_encode_append_nextAddr (l := [.bMdr, .aluH, .jamN]) a (by decide)

theorem decode_ifz (a : CsAddr) : decode (encode (Pseudo.ifz a).expand) = testOfHRows .jamZ a :=
  decode_encode_append_nextAddr (l := [.bMdr, .aluH, .jamZ]) a (by decide)

theorem decode_dispatch (a : CsAddr) : decode (encode (Pseudo.dispatch a).expand) = testOfHRows .jamMpc a :=
  decode_encode_append_nextAddr (l := [.bMdr, .aluH, .jamMpc]) a (by decide)

/-! ### Their cycle -/

/-- The working state before the JAM row: H has passed through the ALU and the shifter. -/
def hPassed (s : State) : State := (((beginCycle s).driveB s.mdr).setResult s.h).driveC s.h

theorem endCycle_hPassed (s : State) (v a : CsAddr) :
    endCycle { (hPassed s).setContrib v with mpc := a } = afterTestOfH s a := by
  simp only [endCycle, hPassed, State.setContrib, State.driveC, State.setResult, State.driveB, beginCycle, flagN_eq,
    flagZ_eq]

/-- The cycle of a word that passes H: its one JAM row contributes `v` to the address. -/
theorem step_testOfHRows {s : State} {jam : Instr} {a v : CsAddr} (hs : s.fault = none)
    (hmap : aluFnOf s.params 24 = some .h) (hdecode : decode (fetchMir s) = testOfHRows jam a)
    (hjam : exec jam (hPassed s) = .next ((hPassed s).setContrib (0#9 ||| v))) :
    step s = .next (afterTestOfH s (a ||| v)) := by
  have hf : (hPassed s).fault = none := by simpa [hPassed] using hs
  have hb : exec .bMdr (beginCycle s) = .next ((beginCycle s).driveB s.mdr) := rfl
  have halu : exec .aluH ((beginCycle s).driveB s.mdr) = .next (((beginCycle s).driveB s.mdr).setResult s.h) :=
    aluStep_mapped (s := (beginCycle s).driveB s.mdr) hmap
  have hsh : exec .shNone (((beginCycle s).driveB s.mdr).setResult s.h) = .next (hPassed s) := rfl
  have hc : exec .cNone (hPassed s) = .next (hPassed s) := rfl
  have hmem : exec .memNone (hPassed s) = .next (hPassed s) := rfl
  have hnext : exec (.nextAddr a) ((hPassed s).setContrib v) = .next { (hPassed s).setContrib v with mpc := a ||| v } :=
    rfl
  rw [BitVec.zero_or] at hjam
  have hrun : runRows (decode (fetchMir s)) (beginCycle s) =
      .next { (hPassed s).setContrib v with mpc := a ||| v } := by
    rw [hdecode]
    change runRows [.bMdr, .aluH, .shNone, .cNone, .memNone, jam, .nextAddr a] (beginCycle s) = _
    rw [runRows_cons hb (by simpa using hs), runRows_cons halu (by simpa using hs), runRows_cons hsh hf,
      runRows_cons hc hf, runRows_cons hmem hf, runRows_cons hjam (by simpa using hf),
      runRows_cons hnext (by simpa using hf), runRows_nil]
  rw [step_running hs, cycle_of_runRows hrun, commit_running (by simpa using hf), endCycle_hPassed]

/-- A flag in bit 8 of an address (R191, R192). -/
theorem or_flagBit8 (a : CsAddr) (f : Bool) : a ||| flagBit8 f = if f then a ||| 0x100 else a := by
  cases f with
  | true => rfl
  | false => exact BitVec.or_zero

/-! ### Extra fields -/

theorem mem_expandWith_iff {p : Pseudo} {extra : List Instr} {i : Instr} :
    i ∈ p.expandWith extra ↔ i ∈ extra ∨ (i ∈ p.expand ∧ ∀ e ∈ extra, e.kind ≠ i.kind) := by
  rw [Pseudo.expandWith, List.mem_append, List.mem_filter, or_comm]
  simp

/-- Settles O50: the words decode to the rows that pass H, and each JAM row contributes its own bits. -/
theorem pseudoInstructions : Obligations.PseudoInstructions := by
  unfold Obligations.PseudoInstructions
  refine ⟨fun s a hs hmap => ⟨?goto, ?ifnz, ?ifz, ?dispatch⟩, fun _ _ _ => mem_expandWith_iff⟩
  case goto =>
    intro hw
    have hdecode : decode (fetchMir s) = testOfHRows .jamNone a := by
      obtain hw | hw := hw
      · rw [hw, decode_nop]
      · rw [hw, decode_goto]
    rw [step_testOfHRows (v := 0#9) hs hmap hdecode rfl, BitVec.or_zero]
  case ifnz =>
    intro hw
    rw [step_testOfHRows (v := flagBit8 (flagN s.h)) hs hmap (by rw [hw, decode_ifnz]) rfl, or_flagBit8, flagN_eq]
    simp only [decide_eq_true_eq]
  case ifz =>
    intro hw
    rw [step_testOfHRows (v := flagBit8 (flagZ s.h)) hs hmap (by rw [hw, decode_ifz]) rfl, or_flagBit8, flagZ_eq]
    simp only [decide_eq_true_eq]
  case dispatch =>
    intro hw
    exact step_testOfHRows (v := s.mbr.setWidth 9) hs hmap (by rw [hw, decode_dispatch]) rfl

end Sys2Proof.Machine
end

/-! ## The decoder and the encoder undo each other (40_decoder.md R90, R93; 30_encoding.md R80, R82) -/

section
namespace Sys2Proof.Machine

/-! ### A field in its place -/

/-- Reading a placed value back from its place. -/
theorem extractLsb'_place_same {n lo : Nat} (v : BitVec n) (h : lo + n ≤ 36) :
    (v.setWidth 36 <<< lo : MicroWord).extractLsb' lo n = v := by
  apply BitVec.eq_of_getLsbD_eq
  intro k hk
  have hword : lo + k < 36 := by omega
  simp [hk, hword]

/-- A placed value is 0 outside its place. -/
theorem extractLsb'_place_disjoint {n lo lo' n' : Nat} (v : BitVec n) (h : lo' + n' ≤ lo ∨ lo + n ≤ lo') :
    (v.setWidth 36 <<< lo : MicroWord).extractLsb' lo' n' = 0#n' := by
  apply BitVec.eq_of_getLsbD_eq
  intro k hk
  have hout : lo' + k < lo ∨ n ≤ lo' + k - lo := by omega
  obtain hbelow | habove := hout
  · simp [hbelow]
  · simp [BitVec.getLsbD_of_ge v _ habove]

/-- A field put back in its place is the word under the field's bits. -/
theorem place_extractLsb' (w : MicroWord) (lo n : Nat) :
    ((w.extractLsb' lo n).setWidth 36 <<< lo : MicroWord) = w &&& (BitVec.allOnes n).setWidth 36 <<< lo := by
  apply BitVec.eq_of_getLsbD_eq
  intro k hk
  by_cases hlo : k < lo
  · simp [hlo]
  · have hback : lo + (k - lo) = k := by omega
    simp [hlo, hback, hk, Bool.and_comm]

theorem wordOf_eq_place (f : Fields) :
    wordOf f = f.bSelect.setWidth 36 <<< 0 ||| f.memOps.setWidth 36 <<< 4 ||| f.cDest.setWidth 36 <<< 7 |||
      f.aluOp.setWidth 36 <<< 16 ||| f.shift.setWidth 36 <<< 22 ||| f.jump.setWidth 36 <<< 24 |||
      f.nextAddr.setWidth 36 <<< 27 := by
  rw [BitVec.shiftLeft_zero, wordOf]

/-- The bits of the seven fields make up the word (R71). -/
theorem wordOf_fieldsOf (w : MicroWord) : wordOf (fieldsOf w) = w := by
  simp only [wordOf_eq_place, fieldsOf, place_extractLsb', ← BitVec.and_or_distrib_left]
  exact BitVec.and_allOnes

/-- No field meets another, so each comes back (R71). -/
theorem fieldsOf_wordOf (f : Fields) : fieldsOf (wordOf f) = f := by
  simp (disch := decide) only [wordOf_eq_place, fieldsOf, BitVec.extractLsb'_or, extractLsb'_place_same,
    extractLsb'_place_disjoint, BitVec.or_zero, BitVec.zero_or]

/-- Settles O3: a field is the word under the field's bits, and the fields' bits do not meet and leave no bit out. -/
theorem fieldsRoundTrip : Obligations.FieldsRoundTrip := by
  unfold Obligations.FieldsRoundTrip
  exact ⟨wordOf_fieldsOf, fieldsOf_wordOf⟩

/-! ### The order of the table -/

/-- The row stands before the other in the table. -/
abbrev TableBefore : Instr → Instr → Prop := InvImage (· < ·) Instr.tableIndex

theorem strictlyRising_iff_isChain (l : List Nat) : strictlyRising l = true ↔ l.IsChain (· < ·) := by
  induction l with
  | nil => simp [strictlyRising]
  | cons a rest ih =>
    cases rest with
    | nil => simp [strictlyRising]
    | cons b rest => rw [strictlyRising, Bool.and_eq_true, decide_eq_true_eq, ih, List.isChain_cons_cons]

theorem strictlyRising_iff_pairwise (l : List Instr) :
    strictlyRising (l.map Instr.tableIndex) = true ↔ l.Pairwise TableBefore := by
  rw [strictlyRising_iff_isChain, List.isChain_iff_pairwise, List.pairwise_map]
  rfl

/-- The number of a field's first row in the table. -/
def firstIndex : FieldKind → Nat
  | .bSelect => 0
  | .aluOp => 16
  | .shift => 80
  | .cDest => 84
  | .memOps => 94
  | .jump => 98
  | .nextAddr => 102

/-- The number of a field's last row in the table. -/
def lastIndex : FieldKind → Nat
  | .bSelect => 15
  | .aluOp => 79
  | .shift => 83
  | .cDest => 93
  | .memOps => 97
  | .jump => 101
  | .nextAddr => 102

/-- The table lists its rows field by field. -/
theorem tableIndex_mem_range (i : Instr) : firstIndex i.kind ≤ i.tableIndex ∧ i.tableIndex ≤ lastIndex i.kind := by
  cases i with
  | nextAddr a => exact ⟨Nat.le_refl 102, Nat.le_refl 102⟩
  | _ => decide

theorem tableBefore_of_kinds {i j : Instr} (h : lastIndex i.kind < firstIndex j.kind) : TableBefore i j :=
  calc i.tableIndex
    _ ≤ lastIndex i.kind := (tableIndex_mem_range i).2
    _ < firstIndex j.kind := h
    _ ≤ j.tableIndex := (tableIndex_mem_range j).1

/-! ### What a well-formed list is -/

theorem maskOf_iff {k : FieldKind} {empty : Instr} {l : List Instr} :
    maskOf k empty l = true ↔ 1 ≤ countOf k l ∧ (empty ∈ l → countOf k l = 1) := by
  simp [maskOf, imp_iff_not_or]

theorem eq_of_countOf_eq_one {k : FieldKind} {l : List Instr} (h : countOf k l = 1) {i j : Instr} (hi : i ∈ l)
    (hik : i.kind = k) (hj : j ∈ l) (hjk : j.kind = k) : j = i := by
  rw [countOf, List.countP_eq_length_filter, List.length_eq_one_iff] at h
  obtain ⟨r, hr⟩ := h
  have honly : ∀ x ∈ l, x.kind = k → x = r := fun x hx hxk => by
    simpa [hr] using mem_ofKind_iff.mpr ⟨hx, hxk⟩
  rw [honly i hi hik, honly j hj hjk]

theorem exists_of_countOf {k : FieldKind} {l : List Instr} (h : 1 ≤ countOf k l) : ∃ j ∈ l, j.kind = k := by
  by_contra hnone
  have hzero : countOf k l = 0 := countOf_eq_zero_iff.mpr (by simpa using hnone)
  omega

/-- A well-formed list stands in the order of the table, assembles, and leaves no field out. -/
theorem wellFormed_spec {l : List Instr} (h : WellFormed l = true) :
    l.Pairwise TableBefore ∧ Assembles l ∧ ∀ k, ∃ j ∈ l, j.kind = k := by
  simp only [WellFormed, Bool.and_eq_true, oneOf, decide_eq_true_eq, maskOf_iff, strictlyRising_iff_pairwise] at h
  obtain ⟨⟨⟨⟨⟨⟨⟨horder, hb⟩, halu⟩, hshift⟩, hc, hc1⟩, hmem, hmem1⟩, hjam, hjam1⟩, hnext⟩ := h
  refine ⟨horder, ⟨halu, hnext, hb.le, hshift.le, ?_, ?_, ?_⟩, fun k => exists_of_countOf ?_⟩
  · exact fun he j hj hjk => eq_of_countOf_eq_one (hc1 he) he rfl hj hjk
  · exact fun he j hj hjk => eq_of_countOf_eq_one (hmem1 he) he rfl hj hjk
  · exact fun he j hj hjk => eq_of_countOf_eq_one (hjam1 he) he rfl hj hjk
  · cases k with
    | bSelect => exact hb.ge
    | aluOp => exact halu.ge
    | shift => exact hshift.ge
    | cDest => exact hc
    | memOps => exact hmem
    | jump => exact hjam
    | nextAddr => exact hnext.ge

/-! ### The rows of a word are well formed -/

theorem setBitRows_sublist {n : Nat} (v : BitVec n) (k : Nat) (rows : List Instr) :
    (setBitRows v k rows).Sublist rows := by
  induction rows generalizing k with
  | nil => exact List.Sublist.refl _
  | cons i rest ih =>
    rw [setBitRows]
    split
    · exact (ih _).cons_cons i
    · exact (ih _).cons i

/-- A bitmask field gives the row of its empty mask alone, or rows of set bits. -/
theorem maskRows_cases {n : Nat} (v : BitVec n) (rows : List Instr) (empty : Instr) :
    maskRows v rows empty = [empty] ∨ maskRows v rows empty ≠ [] ∧ (maskRows v rows empty).Sublist rows := by
  rw [maskRows]
  split
  · exact Or.inl rfl
  · rename_i h
    exact Or.inr ⟨h, setBitRows_sublist v 0 rows⟩

theorem maskRows_pairwise {n : Nat} {rows : List Instr} (hrows : rows.Pairwise TableBefore) (v : BitVec n)
    (empty : Instr) : (maskRows v rows empty).Pairwise TableBefore := by
  obtain h | ⟨-, h⟩ := maskRows_cases v rows empty
  · rw [h]; exact List.pairwise_singleton _ _
  · exact hrows.sublist h

theorem fieldRows_pairwise (f : Fields) (k : FieldKind) : (fieldRows f k).Pairwise TableBefore := by
  cases k with
  | bSelect | aluOp | shift | nextAddr => exact List.pairwise_singleton _ _
  | cDest | memOps | jump => exact maskRows_pairwise ((strictlyRising_iff_pairwise _).mp (by decide)) _ _

/-- The rows of a word stand in the order of the table: the fields do, and the rows of each field do. -/
theorem decode_pairwise (w : MicroWord) : (decode w).Pairwise TableBefore := by
  rw [decode, rowsOf_eq_flatMap, List.pairwise_flatMap]
  have hkinds : [FieldKind.bSelect, .aluOp, .shift, .cDest, .memOps, .jump, .nextAddr].Pairwise
      (fun k k' => lastIndex k < firstIndex k') := by decide
  refine ⟨fun k _ => fieldRows_pairwise _ k, hkinds.imp fun {k k'} h i hi j hj => ?_⟩
  apply tableBefore_of_kinds
  rwa [fieldRows_kind _ k i hi, fieldRows_kind _ k' j hj]

theorem countOf_append (k : FieldKind) (l l' : List Instr) : countOf k (l ++ l') = countOf k l + countOf k l' :=
  List.countP_append

theorem countOf_fieldRows (f : Fields) (k k' : FieldKind) :
    countOf k (fieldRows f k') = if k' = k then (fieldRows f k').length else 0 := by
  split
  · rename_i h
    subst h
    simpa [countOf] using fieldRows_kind f k'
  · rename_i h
    exact countOf_eq_zero_iff.mpr fun j hj => fieldRows_kind f k' j hj ▸ h

/-- Of each field a word has the rows that the field gives. -/
theorem countOf_decode (w : MicroWord) (k : FieldKind) :
    countOf k (decode w) = (fieldRows (fieldsOf w) k).length := by
  cases k <;> simp [decode, rowsOf_eq_flatMap, countOf_append, countOf_fieldRows]

theorem maskOf_decode {n : Nat} {v : BitVec n} {w : MicroWord} {k : FieldKind} {rows : List Instr} {empty : Instr}
    (hk : empty.kind = k) (hrows : fieldRows (fieldsOf w) k = maskRows v rows empty) (he : empty ∉ rows) :
    maskOf k empty (decode w) = true := by
  rw [maskOf_iff, countOf_decode, mem_decode_iff hk, hrows]
  obtain h | ⟨hne, hsub⟩ := maskRows_cases v rows empty
  · simp [h]
  · exact ⟨List.length_pos_iff.mpr hne, fun hmem => absurd (hsub.subset hmem) he⟩

theorem wellFormed_decode (w : MicroWord) : WellFormed (decode w) = true := by
  have hone : ∀ k, (fieldRows (fieldsOf w) k).length = 1 → oneOf k (decode w) = true := by
    intro k hk
    rw [oneOf, decide_eq_true_eq, countOf_decode, hk]
  have hc : maskOf .cDest .cNone (decode w) = true := maskOf_decode rfl rfl (by decide)
  have hmem : maskOf .memOps .memNone (decode w) = true := maskOf_decode rfl rfl (by decide)
  have hjam : maskOf .jump .jamNone (decode w) = true := maskOf_decode rfl rfl (by decide)
  simp only [WellFormed, (strictlyRising_iff_pairwise _).mpr (decode_pairwise w), hone .bSelect rfl, hone .aluOp rfl,
    hone .shift rfl, hone .nextAddr rfl, hc, hmem, hjam, Bool.and_self]

/-! ### The word of a word's rows -/

theorem getLsbD_encode (l : List Instr) (b : Nat) :
    (encode l).getLsbD b = true ↔ ∃ i ∈ l, i.pattern.getLsbD b = true := by
  induction l with
  | nil => simp
  | cons i rest ih => rw [encode, BitVec.getLsbD_or, Bool.or_eq_true, ih, List.exists_mem_cons_iff]

/-- The fields that hold one value, not a mask of bits (R71). -/
def singleValuedFields : List FieldKind := [.bSelect, .aluOp, .shift, .nextAddr]

/-- Every bit of a word has a row of its own or is in a single-valued field (R71). -/
theorem bit_has_row_or_singleValued_field : ∀ b < 36, (∃ i ∈ destRows ++ memRows ++ jamRows, i.placed = ⟨b, 1, 1⟩) ∨
    ∃ k ∈ singleValuedFields, (fieldBits k).getLsbD b = true := by
  decide

/-- The rows of a single-valued field fix every bit of it (R80). -/
theorem mask_eq_fieldBits {i : Instr} (hk : i.kind ∈ singleValuedFields) :
    i.mask = fieldBits i.kind := by
  revert hk
  cases i with
  | nextAddr a => exact fun _ => (by decide : Instr.mask (.nextAddr 0) = fieldBits .nextAddr)
  | _ => decide

theorem exists_mem_decode_kind (w : MicroWord) (k : FieldKind) : ∃ i ∈ decode w, i.kind = k := by
  obtain ⟨-, -, hfields⟩ := wellFormed_spec (wellFormed_decode w)
  exact hfields k

theorem and_mask_of_mem_decode {w : MicroWord} {i : Instr} (hi : i ∈ decode w) : w &&& i.mask = i.pattern :=
  beq_iff_eq.mp ((mem_decode_iff_matchesWord w i).mp hi)

/-- Every set bit of a word is set in the pattern of a row that matches the word. -/
theorem exists_mem_decode_of_getLsbD {w : MicroWord} {b : Nat} (hb : w.getLsbD b = true) :
    ∃ i ∈ decode w, i.pattern.getLsbD b = true := by
  obtain ⟨i, -, hi⟩ | ⟨k, hk, hbit⟩ := bit_has_row_or_singleValued_field b (BitVec.lt_of_getLsbD hb)
  · exact ⟨i, (mem_decode_iff_matchesWord w i).mpr ((matchesWord_iff_getLsbD hi w).mpr hb),
      (matchesWord_iff_getLsbD hi _).mp (matchesWord_pattern i)⟩
  · obtain ⟨i, hi, rfl⟩ := exists_mem_decode_kind w k
    refine ⟨i, hi, ?_⟩
    rw [← and_mask_of_mem_decode hi, BitVec.getLsbD_and, hb, mask_eq_fieldBits hk, hbit, Bool.and_self]

/-- The rows that match a word set the word's bits and no other. -/
theorem encode_decode (w : MicroWord) : encode (decode w) = w := by
  apply BitVec.eq_of_getLsbD_eq
  intro b _
  rw [Bool.eq_iff_iff, getLsbD_encode]
  constructor
  · rintro ⟨i, hi, hbit⟩
    rw [← and_mask_of_mem_decode hi, BitVec.getLsbD_and, Bool.and_eq_true] at hbit
    exact hbit.1
  · exact exists_mem_decode_of_getLsbD

/-- Settles O1: the rows of a word are in order and complete field by field, and their patterns are the word's bits. -/
theorem encodingDecodedRowsGivesTheWord : Obligations.EncodingDecodedRowsGivesTheWord := by
  unfold Obligations.EncodingDecodedRowsGivesTheWord
  exact fun w => ⟨encode_decode w, wellFormed_decode w⟩

/-! ### The rows of a row list's word -/

/-- Both lists stand in the order of the table, and they have the same rows. -/
theorem decode_encode {l : List Instr} (hl : WellFormed l = true) : decode (encode l) = l := by
  obtain ⟨horder, hassembles, hfields⟩ := wellFormed_spec hl
  exact (decode_pairwise _).eq_of_mem_iff horder fun i => hassembles.mem_decode_iff_of_present (hfields i.kind)

/-- Settles O2: a well-formed list is the one list in the order of the table that has its rows. -/
theorem decodingEncodedRowsGivesTheRows : Obligations.DecodingEncodedRowsGivesTheRows := by
  unfold Obligations.DecodingEncodedRowsGivesTheRows
  exact fun _ => decode_encode

end Sys2Proof.Machine
end

/-! ## The B-bus, the ALU and the shifter (41_bus_alu.md R100 to R138) -/

section
namespace Sys2Proof.Machine

/-! ### What the rows of the three families can do -/

/-- A B row drives the B-bus or raises a fault (R100, R110). -/
theorem bRow_cases {i : Instr} (hk : i.kind = .bSelect) {s t : State} (h : exec i s = .next t) :
    (∃ v, t = s.driveB v) ∨ ∃ cause info, t = raiseFault cause info s := by
  rw [exec_bRow hk] at h
  cases hb : bSource s (BitVec.ofNat 4 i.placed.value) with
  | some v => rw [hb] at h; cases h; exact .inl ⟨v, rfl⟩
  | none =>
    rw [hb, Option.elim_none] at h
    cases hs : s.params.strict with
    | true => rw [invalidB_strict hs] at h; cases h; exact .inr ⟨_, _, rfl⟩
    | false => rw [invalidB_permissive hs] at h; cases h; exact .inl ⟨_, rfl⟩

/-- An ALU row leaves a result with its flags or raises a fault (R111, R130, R131). -/
theorem aluRow_cases {i : Instr} (hk : i.kind = .aluOp) {s t : State} (h : exec i s = .next t) :
    (∃ r, t = s.setResult r) ∨ ∃ cause info, t = raiseFault cause info s := by
  rw [exec_aluRow hk] at h
  cases hf : aluFnOf s.params (BitVec.ofNat 6 i.placed.value) with
  | some f => rw [aluStep_mapped hf] at h; cases h; exact .inl ⟨_, rfl⟩
  | none =>
    cases hs : s.params.strict with
    | true => rw [aluStep_strict hf hs] at h; cases h; exact .inr ⟨_, _, rfl⟩
    | false => rw [aluStep_permissive hf hs] at h; cases h; exact .inl ⟨_, rfl⟩

/-- A SH row drives the C-bus or raises a fault (R133, R137). -/
theorem shiftRow_cases {i : Instr} (hk : i.kind = .shift) {s t : State} (h : exec i s = .next t) :
    (∃ v, t = s.driveC v) ∨ ∃ cause info, t = raiseFault cause info s := by
  cases i <;> cases hk
  case sh3.refl =>
    replace h : execSh3 s = .next t := h
    cases hs : s.params.strict with
    | true => rw [execSh3_strict hs] at h; cases h; exact .inr ⟨_, _, rfl⟩
    | false => rw [execSh3_permissive hs] at h; cases h; exact .inl ⟨_, rfl⟩
  all_goals cases h; exact .inl ⟨_, rfl⟩

/-! ### Which rows write the flags -/

/-- A meaning that goes on with `u` where `p` holds and raises a fault elsewhere keeps the flags, where `u` has them. -/
theorem guarded_keeps_flags {o : Host.Outcome State Fault Refusal} {p : Prop} {s t u : State}
    (hrun : p → o = .next u) (hfault : ¬ p → ∃ cause info, o = .next (raiseFault cause info s))
    (hu : u.n = s.n ∧ u.z = s.z) (h : o = .next t) : t.n = s.n ∧ t.z = s.z := by
  by_cases hp : p
  · rw [hrun hp] at h
    cases h
    exact hu
  · obtain ⟨cause, info, ho⟩ := hfault hp
    rw [ho] at h
    cases h
    exact ⟨rfl, rfl⟩

theorem memRow_keeps_flags {i : Instr} (hk : i.kind = .memOps) {s t : State} (h : exec i s = .next t) :
    t.n = s.n ∧ t.z = s.z := by
  cases i <;> cases hk
  case memFetch.refl =>
    exact guarded_keeps_flags (execMemFetch_inRange (s := s))
      (fun hr => ⟨_, _, execMemFetch_outOfRange (Nat.not_le.mp hr)⟩) ⟨rfl, rfl⟩ h
  case memRd.refl =>
    exact guarded_keeps_flags (execMemRd_inRange (s := s))
      (fun hr => ⟨_, _, execMemRd_outOfRange (Nat.not_le.mp hr)⟩) ⟨rfl, rfl⟩ h
  case memWr.refl =>
    exact guarded_keeps_flags (execMemWr_inRange (s := s))
      (fun hr => ⟨_, _, execMemWr_outOfRange (Nat.not_le.mp hr)⟩) ⟨rfl, rfl⟩ h
  case memNone.refl =>
    cases h
    exact ⟨rfl, rfl⟩

/-- A row of another field than `alu_op` leaves the flags (R131). -/
theorem exec_keeps_flags {i : Instr} (hi : i.kind ≠ .aluOp) {s t : State} (h : exec i s = .next t) :
    t.n = s.n ∧ t.z = s.z := by
  cases hk : i.kind with
  | bSelect => obtain ⟨v, rfl⟩ | ⟨_, _, rfl⟩ := bRow_cases hk h <;> exact ⟨rfl, rfl⟩
  | aluOp => exact absurd hk hi
  | shift => obtain ⟨v, rfl⟩ | ⟨_, _, rfl⟩ := shiftRow_cases hk h <;> exact ⟨rfl, rfl⟩
  | memOps => exact memRow_keeps_flags hk h
  | cDest | jump | nextAddr => cases i <;> cases hk <;> cases h <;> exact ⟨rfl, rfl⟩

/-- An ALU row that raises no fault leaves a result with its flags. -/
theorem aluRow_setsResult {i : Instr} (hk : i.kind = .aluOp) {s t : State} (h : exec i s = .next t)
    (ht : t.fault = none) : ∃ r, t = s.setResult r := by
  obtain hr | ⟨_, _, rfl⟩ := aluRow_cases hk h
  · exact hr
  · cases ht

theorem flagN_eq_not_flagZ (r : Word) : flagN r = !flagZ r := rfl

/-- What one row of a list establishes and every row keeps, a run to the end of the list establishes. -/
theorem runRows_establishes {P : State → Prop} (hkeep : ∀ j s t, P s → exec j s = .next t → P t) {i : Instr}
    (hset : ∀ s t, exec i s = .next t → t.fault = none → P t) {l : List Instr} (hi : i ∈ l) {s t : State}
    (h : runRows l s = .next t) (ht : t.fault = none) : P t := by
  induction l generalizing s with
  | nil => cases hi
  | cons j rest ih =>
    obtain ⟨u, hu, ⟨hf, rfl⟩ | ⟨hf, hrest⟩⟩ := runRows_cons_eq_next_iff.mp h
    · exact absurd ht hf
    · obtain rfl | hi := List.mem_cons.mp hi
      · exact runRows_induction hkeep (hset s u hu hf) hrest
      · exact ih hi hrest

/-- After a cycle without a fault exactly one flag is 1: the word's ALU row makes them opposite, and every row keeps
them so. -/
theorem ran_flags {s t : State} (h : Ran s t) : t.n = !t.z := by
  obtain ⟨-, w, hw, hwf, rfl⟩ := ran_iff.mp h
  obtain ⟨i, hi, hk⟩ := exists_mem_decode_kind (fetchMir s) .aluOp
  change w.n = !w.z
  refine runRows_establishes (P := fun u => u.n = !u.z) ?keep ?set hi hw hwf
  case keep =>
    intro j u v hu he
    obtain ⟨hn, hz⟩ | ⟨r, hn, hz⟩ := (exec_effect he).flags
    · rw [hn, hz, hu]
    · rw [hn, hz, flagN_eq_not_flagZ]
  case set =>
    intro u v he hv
    obtain ⟨r, rfl⟩ := aluRow_setsResult hk he hv
    exact flagN_eq_not_flagZ r

/-- Settles O31: the cycle by its ALU row, the rows family by family. -/
theorem onlyAluRowsWriteTheFlags : Obligations.OnlyAluRowsWriteTheFlags := by
  unfold Obligations.OnlyAluRowsWriteTheFlags
  refine ⟨fun _ _ => ran_flags, fun i s t h => ⟨fun hi => exec_keeps_flags hi h, fun hk _ ht => ?_⟩⟩
  obtain ⟨r, rfl⟩ := aluRow_setsResult hk h ht
  rw [setResult_n, setResult_z, flagN_eq, flagZ_eq, decide_eq_true_iff, decide_eq_true_iff]
  exact ⟨Iff.rfl, Iff.rfl⟩

/-- Settles O18: the rows drive a bus, leave an ALU result, or raise a fault. -/
theorem busAndAluRowsFrame : Obligations.BusAndAluRowsFrame := by
  unfold Obligations.BusAndAluRowsFrame
  intro i s t hk h
  refine ⟨?_, fun hi => exec_keeps_flags hi h⟩
  simp only [List.mem_cons, List.not_mem_nil, or_false] at hk
  obtain hk | hk | hk := hk
  · obtain ⟨v, rfl⟩ | ⟨_, _, rfl⟩ := bRow_cases hk h <;> rfl
  · obtain ⟨r, rfl⟩ | ⟨_, _, rfl⟩ := aluRow_cases hk h <;> rfl
  · obtain ⟨v, rfl⟩ | ⟨_, _, rfl⟩ := shiftRow_cases hk h <;> rfl

/-! ### The ALU -/

theorem setResult_eq_withResult (s : State) (r : Word) : s.setResult r = withResult s r := by
  rw [State.setResult, flagN_eq, flagZ_eq]

/-- The ALU functions on words are the arithmetic modulo 2^32 and the bitwise logic of R113 to R129. -/
theorem aluEval_eq_aluResult (f : AluFn) (h b : Word) : aluEval f h b = aluResult f h b := by
  cases f with
  | zero | one | minusOne | b | h => rfl
  | and | or => simp [aluEval, aluResult]
  | notH | notB | bInc | bDec | hInc | negH | add | addInc | sub => simp only [aluEval, aluResult]; bv_omega

/-- The row of an `alu_op` value has that value as its code (R77). -/
theorem placed_value_aluRow (k : BitVec 6) : (valueRow aluRows k.toNat .alu0).placed.value = k.toNat := by
  have hlt : k.toNat < aluRows.length := k.isLt
  have hmem : valueRow aluRows k.toNat .alu0 ∈ aluRows := by
    rw [valueRow, List.getD_eq_getElem _ _ hlt]
    exact List.getElem_mem hlt
  exact ((eq_valueRow_iff (by decide) hmem hlt .alu0).mp rfl).symm

theorem exec_aluRow_of_code (k : BitVec 6) (s : State) :
    exec (valueRow aluRows k.toNat .alu0) s = aluStep k s := by
  rw [exec_aluRow (valueRow_kind (by decide) rfl _), placed_value_aluRow, BitVec.ofNat_toNat, BitVec.setWidth_eq]

/-- Settles O11: the row of a code is the ALU with that code, and the function's two forms agree. -/
theorem aluRowsApplyTheMappedFunction : Obligations.AluRowsApplyTheMappedFunction := by
  unfold Obligations.AluRowsApplyTheMappedFunction
  intro k f s hf
  rw [exec_aluRow_of_code, aluStep_mapped hf, setResult_eq_withResult, aluEval_eq_aluResult]

/-! ### The ALU under the default map -/

/-- Settles O13: the map is a table of 64 entries, compared one by one. -/
theorem defaultAluCodeMap_table : Obligations.DefaultAluCodeMap := by
  unfold Obligations.DefaultAluCodeMap
  exact ⟨by decide, by decide⟩

/-- The ALU under the default map (R112). -/
theorem aluStep_default {s : State} (hmap : s.params.aluCodeMap = defaultAluCodeMap) {code : BitVec 6} {r : Word}
    (f : AluFn) (hf : aluFnOf defaultParams code = some f) (hr : aluEval f s.h s.bus.b = r) :
    aluStep code s = .next (withResult s r) := by
  have hcode : aluFnOf s.params code = some f := by rw [← hf, aluFnOf, aluFnOf, hmap]; rfl
  rw [aluStep_mapped hcode, setResult_eq_withResult, hr]

/-- Settles O14: the default map gives each code its function. -/
theorem namedAluRowsConstantsAndLogic : Obligations.NamedAluRowsConstantsAndLogic := by
  unfold Obligations.NamedAluRowsConstantsAndLogic
  refine ⟨by decide, fun s hmap => ?_⟩
  exact ⟨aluStep_default hmap .zero rfl rfl, aluStep_default hmap .one rfl rfl,
    aluStep_default hmap .minusOne rfl rfl, aluStep_default hmap .and rfl rfl, aluStep_default hmap .b rfl rfl,
    aluStep_default hmap .h rfl rfl, aluStep_default hmap .notH rfl rfl, aluStep_default hmap .or rfl rfl,
    aluStep_default hmap .notB rfl rfl⟩

/-- An arithmetic function's result modulo 2^32 (R113). -/
theorem aluEval_eq_ofNat_mod {f : AluFn} {h b : Word} {n : Nat} (hn : aluResult f h b = BitVec.ofNat 32 n) :
    aluEval f h b = BitVec.ofNat 32 (n % 2 ^ 32) := by
  rw [aluEval_eq_aluResult, hn]
  exact BitVec.eq_of_toNat_eq (Nat.mod_mod n (2 ^ 32)).symm

/-- The two's complement: NOT and then plus 1 is the distance to 2^32. -/
theorem toNat_not_add_one (v : Word) : (~~~v).toNat + 1 = 2 ^ 32 - v.toNat := by
  rw [BitVec.toNat_not]
  omega

/-- Settles O15: the default map gives each code its function; NEG_H and SUB by the two's complement of H. -/
theorem namedAluRowsArithmetic : Obligations.NamedAluRowsArithmetic := by
  unfold Obligations.NamedAluRowsArithmetic
  refine ⟨by decide, fun s hmap => ?_⟩
  have hnegH : aluResult .negH s.h s.bus.b = BitVec.ofNat 32 ((~~~s.h).toNat + 1) := by
    rw [toNat_not_add_one]; rfl
  have hsub : aluResult .sub s.h s.bus.b = BitVec.ofNat 32 (s.bus.b.toNat + (~~~s.h).toNat + 1) := by
    rw [Nat.add_assoc, toNat_not_add_one]; rfl
  exact ⟨aluStep_default hmap .bInc rfl (aluEval_eq_ofNat_mod rfl),
    aluStep_default hmap .bDec rfl (aluEval_eq_ofNat_mod rfl),
    aluStep_default hmap .hInc rfl (aluEval_eq_ofNat_mod rfl),
    aluStep_default hmap .negH rfl (aluEval_eq_ofNat_mod hnegH),
    aluStep_default hmap .add rfl (aluEval_eq_ofNat_mod rfl),
    aluStep_default hmap .addInc rfl (aluEval_eq_ofNat_mod rfl),
    aluStep_default hmap .sub rfl (aluEval_eq_ofNat_mod hsub)⟩

/-! ### The B-bus -/

/-- Sign extension: bit 7 adds the 24 high ones (R12, R103). -/
theorem sext32_eq_ofNat (b : Byte) :
    sext32 b = BitVec.ofNat 32 (b.toNat + if b.getLsbD 7 then 0xFFFFFF00 else 0) := by
  have hb := b.isLt
  apply BitVec.eq_of_toNat_eq
  rw [sext32, BitVec.toNat_signExtend, BitVec.toNat_setWidth_of_le (by decide), BitVec.toNat_ofNat,
    BitVec.msb_eq_getLsbD_last]
  split <;> omega

/-- Settles O9: eight sources by the row's own meaning, MBR by its sign extension. -/
theorem bSourceRowsDriveTheBBus : Obligations.BSourceRowsDriveTheBBus := by
  unfold Obligations.BSourceRowsDriveTheBBus
  refine ⟨by decide, fun s => ?_⟩
  rw [← sext32_eq_ofNat, BitVec.ofNat_toNat]
  exact ⟨rfl, rfl, rfl, rfl, rfl, rfl, rfl, rfl, rfl⟩

/-! ### The shifter -/

theorem shiftLeft8_eq_append (r : Word) : shiftLeft8 r = r.extractLsb' 0 24 ++ 0#8 :=
  BitVec.shiftLeft_eq_concat_of_lt (by decide)

theorem shiftRight1_eq_append (r : Word) : shiftRight1 r = 0#1 ++ r.extractLsb' 1 31 :=
  BitVec.ushiftRight_eq_extractLsb'_of_lt (by decide)

/-- Settles O16: a shift is its bits beside zeros. -/
theorem shiftRowsDriveTheCBus : Obligations.ShiftRowsDriveTheCBus := by
  unfold Obligations.ShiftRowsDriveTheCBus
  refine ⟨by decide, fun s => ?_⟩
  rw [← shiftLeft8_eq_append, ← shiftRight1_eq_append]
  exact ⟨rfl, rfl, rfl⟩

/-- Settles O17: the row's meaning in each mode. -/
theorem invalidShiftRow : Obligations.InvalidShiftRow := by
  unfold Obligations.InvalidShiftRow
  exact fun s => ⟨execSh3_permissive, execSh3_strict⟩

/-! ### The all-zero entry -/

theorem decode_zero : decode 0 = [.bMdr, .alu0, .shNone, .cNone, .memNone, .jamNone, .nextAddr 0] := by decide

/-- An all-zero microinstruction in strict mode: its ALU row ends the cycle (R130). -/
theorem step_zero_strict {s : State} (hs : s.fault = none) (hfetch : fetchMir s = 0)
    (hmap : aluFnOf s.params 0 = none) (hstrict : s.params.strict = true) :
    step s = .next (withFault s .invalidAluOp 0) := by
  have hb : exec .bMdr (beginCycle s) = .next ((beginCycle s).driveB s.mdr) := rfl
  have halu : exec .alu0 ((beginCycle s).driveB s.mdr) =
      .next (raiseFault .invalidAluOp 0 ((beginCycle s).driveB s.mdr)) :=
    aluStep_strict (s := (beginCycle s).driveB s.mdr) hmap hstrict
  have hrun : runRows (decode (fetchMir s)) (beginCycle s) =
      .next (raiseFault .invalidAluOp 0 ((beginCycle s).driveB s.mdr)) := by
    rw [hfetch, decode_zero, runRows_cons hb (by simpa using hs), runRows_cons_fault halu rfl]
  rw [step_running hs, cycle_of_runRows hrun, commit_faulted rfl]
  rfl

/-- The working state of an all-zero microinstruction in permissive mode, before its JAM row: the result 0 has passed
through the shifter. -/
def zeroPassed (s : State) : State := (((beginCycle s).driveB s.mdr).setResult 0).driveC 0

theorem endCycle_zeroPassed (s : State) (v a : CsAddr) :
    endCycle { (zeroPassed s).setContrib v with mpc := a } =
      { s with mir := fetchMir s, n := false, z := true, mpc := a, bus := Buses.idle } := by
  simp [endCycle, zeroPassed, State.setContrib, State.driveC, State.setResult, State.driveB, beginCycle, flagN_eq,
    flagZ_eq]

/-- An all-zero microinstruction in permissive mode: the result is 0 and the core goes on at entry 0 (R130). -/
theorem step_zero_permissive {s : State} (hs : s.fault = none) (hfetch : fetchMir s = 0)
    (hmap : aluFnOf s.params 0 = none) (hpermissive : s.params.strict = false) :
    step s = .next { s with mir := 0, n := false, z := true, mpc := 0, bus := Buses.idle } := by
  have hf : (zeroPassed s).fault = none := by simpa [zeroPassed] using hs
  have hb : exec .bMdr (beginCycle s) = .next ((beginCycle s).driveB s.mdr) := rfl
  have halu : exec .alu0 ((beginCycle s).driveB s.mdr) = .next (((beginCycle s).driveB s.mdr).setResult 0) :=
    aluStep_permissive (s := (beginCycle s).driveB s.mdr) hmap hpermissive
  have hsh : exec .shNone (((beginCycle s).driveB s.mdr).setResult 0) = .next (zeroPassed s) := rfl
  have hc : exec .cNone (zeroPassed s) = .next (zeroPassed s) := rfl
  have hmem : exec .memNone (zeroPassed s) = .next (zeroPassed s) := rfl
  have hjam : exec .jamNone (zeroPassed s) = .next ((zeroPassed s).setContrib 0) := rfl
  have hnext : exec (.nextAddr 0) ((zeroPassed s).setContrib 0) =
      .next { (zeroPassed s).setContrib 0 with mpc := 0#9 ||| 0#9 } := rfl
  have hrun : runRows (decode (fetchMir s)) (beginCycle s) =
      .next { (zeroPassed s).setContrib 0 with mpc := 0#9 ||| 0#9 } := by
    rw [hfetch, decode_zero, runRows_cons hb (by simpa using hs), runRows_cons halu (by simpa using hs),
      runRows_cons hsh hf, runRows_cons hc hf, runRows_cons hmem hf, runRows_cons hjam (by simpa using hf),
      runRows_cons hnext (by simpa using hf), runRows_nil]
  rw [step_running hs, cycle_of_runRows hrun, commit_running (by simpa using hf), endCycle_zeroPassed, hfetch,
    BitVec.or_zero]
  rfl

/-- Settles O49: the ALU row of code 0 decides, in each mode. -/
theorem allZeroEntry : Obligations.AllZeroEntry := by
  unfold Obligations.AllZeroEntry
  exact fun s hs hfetch hmap => ⟨step_zero_strict hs hfetch hmap, step_zero_permissive hs hfetch hmap⟩

end Sys2Proof.Machine
end

/-! ## The C-bus distributor (42_cbus.md R150 to R162) -/

section
namespace Sys2Proof.Machine

/-! ### The nine destinations -/

/-- The registers that the C-bus writes (R151). -/
inductive DestReg where
  | mar | mdr | pc | sp | lv | cpp | tos | opc | h
deriving DecidableEq

def DestReg.get : DestReg → State → Word
  | .mar => State.mar
  | .mdr => State.mdr
  | .pc => State.pc
  | .sp => State.sp
  | .lv => State.lv
  | .cpp => State.cpp
  | .tos => State.tos
  | .opc => State.opc
  | .h => State.h

def DestReg.put (r : DestReg) (v : Word) (s : State) : State :=
  match r with
  | .mar => { s with mar := v }
  | .mdr => { s with mdr := v }
  | .pc => { s with pc := v }
  | .sp => { s with sp := v }
  | .lv => { s with lv := v }
  | .cpp => { s with cpp := v }
  | .tos => { s with tos := v }
  | .opc => { s with opc := v }
  | .h => { s with h := v }

/-- The bit of `c_dest` of the register (R73). -/
def DestReg.bit : DestReg → Nat
  | .mar => 0
  | .mdr => 1
  | .pc => 2
  | .sp => 3
  | .lv => 4
  | .cpp => 5
  | .tos => 6
  | .opc => 7
  | .h => 8

def DestReg.row : DestReg → Instr
  | .mar => .cMar
  | .mdr => .cMdr
  | .pc => .cPc
  | .sp => .cSp
  | .lv => .cLv
  | .cpp => .cCpp
  | .tos => .cTos
  | .opc => .cOpc
  | .h => .cH

/-- The destinations, by bit of `c_dest` (R73). -/
def destRegs : List DestReg := [.mar, .mdr, .pc, .sp, .lv, .cpp, .tos, .opc, .h]

theorem destRows_eq_map : destRows = destRegs.map DestReg.row := rfl

theorem exec_destRow (r : DestReg) (s : State) : exec r.row s = .next (r.put s.bus.c s) := by
  cases r <;> rfl

theorem DestReg.put_get (r : DestReg) (s : State) : r.put (r.get s) s = s := by
  cases r <;> rfl

@[simp] theorem DestReg.put_fault (r : DestReg) (v : Word) (s : State) : (r.put v s).fault = s.fault := by
  cases r <;> rfl

/-- Settles O19: the masks compute, and each row is its destination's. -/
theorem destinationRowsCopyTheCBus : Obligations.DestinationRowsCopyTheCBus := by
  unfold Obligations.DestinationRowsCopyTheCBus
  exact ⟨by decide, fun s => ⟨exec_destRow .mar s, exec_destRow .mdr s, exec_destRow .pc s, exec_destRow .sp s,
    exec_destRow .lv s, exec_destRow .cpp s, exec_destRow .tos s, exec_destRow .opc s, exec_destRow .h s, rfl⟩⟩

/-! ### The rows of a mask -/

/-- The destinations in the list take the C-bus value where their bits, from bit `k` on, are set (R150). -/
def distributeFrom (d : BitVec 9) : Nat → List DestReg → State → State
  | _, [], s => s
  | k, r :: rest, s => distributeFrom d (k + 1) rest (r.put (if d.getLsbD k then s.bus.c else r.get s) s)

/-- The C-bus distributor (R150). -/
def State.distribute (s : State) (d : BitVec 9) : State := distributeFrom d 0 destRegs s

theorem DestReg.get_distribute (r : DestReg) (s : State) (d : BitVec 9) :
    r.get (s.distribute d) = if d.getLsbD r.bit then s.bus.c else r.get s := by
  cases r <;> rfl

@[simp] theorem distribute_fault (s : State) (d : BitVec 9) : (s.distribute d).fault = s.fault := rfl

theorem runRows_setBitRows_destRegs (d : BitVec 9) (k : Nat) (rs : List DestReg) {s : State} (hs : s.fault = none) :
    runRows (setBitRows d k (rs.map DestReg.row)) s = .next (distributeFrom d k rs s) := by
  induction rs generalizing k s with
  | nil => rfl
  | cons r rest ih =>
    rw [List.map_cons, setBitRows, distributeFrom]
    split
    · have hput : (r.put s.bus.c s).fault = none := by rw [r.put_fault, hs]
      rw [runRows_cons (exec_destRow r s) hput, ih _ hput]
    · rw [r.put_get, ih _ hs]

/-- Where the row of the empty mask does nothing, a mask's rows are those of its set bits. -/
theorem runRows_maskRows {n : Nat} {v : BitVec n} {rows : List Instr} {empty : Instr} {s : State}
    (hempty : exec empty s = .next s) (hs : s.fault = none) :
    runRows (maskRows v rows empty) s = runRows (setBitRows v 0 rows) s := by
  rw [maskRows]
  split
  · rename_i h
    rw [h, runRows_cons hempty hs]
  · rfl

theorem runRows_destRows (d : BitVec 9) {s : State} (hs : s.fault = none) :
    runRows (maskRows d destRows .cNone) s = .next (s.distribute d) := by
  rw [runRows_maskRows rfl hs, destRows_eq_map, runRows_setBitRows_destRegs d 0 destRegs hs, State.distribute]

/-- Settles O20: the rows of the set bits write their destinations one after the other, and no row changes the C-bus. -/
theorem distributorWritesExactlyTheSelectedRegisters :
    Obligations.DistributorWritesExactlyTheSelectedRegisters := by
  unfold Obligations.DistributorWritesExactlyTheSelectedRegisters
  exact fun d s hs => runRows_destRows d hs

/-! ### The bus values of a cycle -/

/-- The row of a single-valued field's value has that value. -/
theorem placed_value_valueRow {rows : List Instr}
    (hvalues : rows.map (fun j => j.placed.value) = List.range rows.length) {v : Nat} (hv : v < rows.length)
    (default : Instr) : (valueRow rows v default).placed.value = v := by
  have hmem : valueRow rows v default ∈ rows := by
    rw [valueRow, List.getD_eq_getElem _ _ hv]
    exact List.getElem_mem hv
  exact ((eq_valueRow_iff hvalues hmem hv default).mp rfl).symm

/-- A B row that raises no fault (R100, R110). -/
theorem bRow_unfaulted {v : BitVec 4} {s t : State} (h : exec (valueRow bRows v.toNat .bMdr) s = .next t)
    (ht : t.fault = none) : t = s.driveB ((bSource s v).getD 0xFFFFFFFF) := by
  rw [exec_bRow (valueRow_kind (by decide) rfl _), placed_value_valueRow (by decide) v.isLt, BitVec.ofNat_toNat,
    BitVec.setWidth_eq] at h
  cases hb : bSource s v with
  | some x => rw [hb] at h; cases h; rfl
  | none =>
    rw [hb, Option.elim_none] at h
    cases hs : s.params.strict with
    | true => rw [invalidB_strict hs] at h; cases h; cases ht
    | false => rw [invalidB_permissive hs] at h; cases h; rfl

/-- An ALU row that raises no fault (R111, R130). -/
theorem aluRow_unfaulted {code : BitVec 6} {s t : State}
    (h : exec (valueRow aluRows code.toNat .alu0) s = .next t) (ht : t.fault = none) :
    t = s.setResult ((aluFnOf s.params code).elim 0 fun f => aluResult f s.h s.bus.b) := by
  rw [exec_aluRow_of_code] at h
  cases hf : aluFnOf s.params code with
  | some f => rw [aluStep_mapped hf, aluEval_eq_aluResult] at h; cases h; rfl
  | none =>
    cases hs : s.params.strict with
    | true => rw [aluStep_strict hf hs] at h; cases h; cases ht
    | false => rw [aluStep_permissive hf hs] at h; cases h; rfl

theorem shiftLeft8_eq_shifted (r : Word) : shiftLeft8 r = shifted 1 r := by
  apply BitVec.eq_of_toNat_eq
  simp [shiftLeft8, shifted, Nat.shiftLeft_eq]

theorem shiftRight1_eq_shifted (r : Word) : shiftRight1 r = shifted 2 r := by
  have hr := r.isLt
  apply BitVec.eq_of_toNat_eq
  calc (shiftRight1 r).toNat
    _ = r.toNat / 2 ^ 1 := by rw [shiftRight1, BitVec.toNat_ushiftRight, Nat.shiftRight_eq_div_pow]
    _ = r.toNat / 2 % 2 ^ 32 := by omega
    _ = (shifted 2 r).toNat := rfl

/-- A SH row that raises no fault (R133, R137). -/
theorem shiftRow_unfaulted {v : BitVec 2} {s t : State} (h : exec (valueRow shiftRows v.toNat .shNone) s = .next t)
    (ht : t.fault = none) : t = s.driveC (shifted v s.bus.r) := by
  obtain rfl | rfl | rfl | rfl := (by decide : ∀ v : BitVec 2, v = 0 ∨ v = 1 ∨ v = 2 ∨ v = 3) v
  · cases h; rfl
  · cases h; rw [shiftLeft8_eq_shifted]
  · cases h; rw [shiftRight1_eq_shifted]
  · replace h : execSh3 s = .next t := h
    cases hs : s.params.strict with
    | true => rw [execSh3_strict hs] at h; cases h; cases ht
    | false => rw [execSh3_permissive hs] at h; cases h; rfl

theorem rValue_eq_elim (s : State) :
    rValue s = (aluFnOf s.params (fieldsAt s).aluOp).elim 0 fun f => aluResult f s.h (bValue s) := by
  rw [rValue]
  cases aluFnOf s.params (fieldsAt s).aluOp <;> rfl

/-- The working state with the three buses of the cycle driven (R100, R111, R133). -/
def busesDriven (s : State) : State := (((beginCycle s).driveB (bValue s)).setResult (rValue s)).driveC (cValue s)

theorem DestReg.get_busesDriven (r : DestReg) (s : State) : r.get (busesDriven s) = r.get s := by
  cases r <;> simp [DestReg.get, busesDriven]

/-- The working state after the C-bus distributor (R150). -/
def afterDistributor (s : State) : State := (busesDriven s).distribute (fieldsAt s).cDest

/-- The families of the rows after the C rows (R211). -/
def kindsAfterDistributor : List FieldKind := [.memOps, .jump, .nextAddr]

/-- The rows of a microinstruction that stand after the C rows (R211). -/
def rowsAfterDistributor (f : Fields) : List Instr := kindsAfterDistributor.flatMap (fieldRows f)

theorem rowsOf_eq_cons (f : Fields) :
    rowsOf f = valueRow bRows f.bSelect.toNat .bMdr :: valueRow aluRows f.aluOp.toNat .alu0 ::
      valueRow shiftRows f.shift.toNat .shNone ::
      (maskRows f.cDest destRows .cNone ++ rowsAfterDistributor f) := by
  simp [rowsOf, rowsAfterDistributor, kindsAfterDistributor, fieldRows]

/-- A row after which the rows run on to their end without a fault. -/
theorem runRows_cons_unfaulted {i : Instr} {rest : List Instr} {s t : State}
    (h : runRows (i :: rest) s = .next t) (ht : t.fault = none) :
    ∃ u, exec i s = .next u ∧ u.fault = none ∧ runRows rest u = .next t := by
  obtain ⟨u, hu, ⟨hf, rfl⟩ | ⟨hf, hrest⟩⟩ := runRows_cons_eq_next_iff.mp h
  · exact absurd ht hf
  · exact ⟨u, hu, hf, hrest⟩

/-- A cycle without a fault drives its buses and writes the C-bus; the other rows run on from there (R211). -/
theorem ran_afterDistributor {s t : State} (h : Ran s t) :
    ∃ w, runRows (rowsAfterDistributor (fieldsAt s)) (afterDistributor s) = .next w ∧ t = endCycle w := by
  obtain ⟨hs, w, hw, hwf, rfl⟩ := ran_iff.mp h
  refine ⟨w, ?_, rfl⟩
  replace hw : runRows (rowsOf (fieldsAt s)) (beginCycle s) = .next w := hw
  rw [rowsOf_eq_cons] at hw
  obtain ⟨u, hb, hu, hw⟩ := runRows_cons_unfaulted hw hwf
  obtain rfl := bRow_unfaulted hb hu
  obtain ⟨u, halu, hu, hw⟩ := runRows_cons_unfaulted hw hwf
  obtain rfl := aluRow_unfaulted halu hu
  obtain ⟨u, hsh, hu, hw⟩ := runRows_cons_unfaulted hw hwf
  obtain rfl := shiftRow_unfaulted hsh hu
  rw [runRows_append (runRows_destRows _ hu) ((distribute_fault _ _).trans hu)] at hw
  rw [afterDistributor, busesDriven, cValue, rValue_eq_elim]
  exact hw

/-! ### The rows after the distributor -/

/-- A MEM row raises a fault, or writes MBR, MDR (the read alone) or the memory (R172 to R176). -/
theorem memRow_cases {i : Instr} (hk : i.kind = .memOps) {s t : State} (h : exec i s = .next t) :
    (∃ cause info, t = raiseFault cause info s) ∨ (∃ v, t = { s with mbr := v }) ∨
      (i = .memRd ∧ ∃ v, t = { s with mdr := v }) ∨ ∃ m, t = { s with mem := m } := by
  cases i <;> cases hk
  case memFetch.refl =>
    replace h : execMemFetch s = .next t := h
    rcases Nat.lt_or_ge s.params.memSize (s.pc.toNat + 1) with hr | hr
    · rw [execMemFetch_outOfRange hr] at h; cases h; exact .inl ⟨_, _, rfl⟩
    · rw [execMemFetch_inRange hr] at h; cases h; exact .inr (.inl ⟨_, rfl⟩)
  case memRd.refl =>
    replace h : execMemRd s = .next t := h
    rcases Nat.lt_or_ge s.params.memSize (byteOffset s.mar + 4) with hr | hr
    · rw [execMemRd_outOfRange hr] at h; cases h; exact .inl ⟨_, _, rfl⟩
    · rw [execMemRd_inRange hr] at h; cases h; exact .inr (.inr (.inl ⟨rfl, _, rfl⟩))
  case memWr.refl =>
    replace h : execMemWr s = .next t := h
    rcases Nat.lt_or_ge s.params.memSize (byteOffset s.mar + 4) with hr | hr
    · rw [execMemWr_outOfRange hr] at h; cases h; exact .inl ⟨_, _, rfl⟩
    · rw [execMemWr_inRange hr] at h; cases h; exact .inr (.inr (.inr ⟨_, rfl⟩))
  case memNone.refl =>
    cases h
    exact .inr (.inr (.inr ⟨_, rfl⟩))

/-- A JAM row drives the contribution to the next address (R191 to R193). -/
theorem jamRow_cases {i : Instr} (hk : i.kind = .jump) {s t : State} (h : exec i s = .next t) :
    ∃ v, t = s.setContrib v := by
  cases i <;> cases hk <;> cases h <;> exact ⟨_, rfl⟩

theorem mem_rowsAfterDistributor {f : Fields} {i : Instr} (hi : i ∈ rowsAfterDistributor f) :
    i.kind ∈ kindsAfterDistributor ∧ i ∈ fieldRows f i.kind := by
  obtain ⟨k, hk, hfield⟩ := List.mem_flatMap.mp hi
  obtain rfl := fieldRows_kind f k i hfield
  exact ⟨hk, hfield⟩

/-- The rows after the distributor keep the destinations, but for MDR, which a read writes (R174). -/
theorem exec_keeps_dest {i : Instr} (hk : i.kind ∈ kindsAfterDistributor) {r : DestReg} (hr : r ≠ .mdr ∨ i ≠ .memRd)
    {s t : State} (h : exec i s = .next t) : r.get t = r.get s := by
  simp only [kindsAfterDistributor, List.mem_cons, List.not_mem_nil, or_false] at hk
  obtain hk | hk | hk := hk
  · obtain ⟨_, _, rfl⟩ | ⟨v, rfl⟩ | ⟨rfl, v, rfl⟩ | ⟨m, rfl⟩ := memRow_cases hk h
    · cases r <;> rfl
    · cases r <;> rfl
    · have hmdr : r ≠ .mdr := hr.resolve_right fun hread => hread rfl
      cases r with
      | mdr => exact absurd rfl hmdr
      | _ => rfl
    · cases r <;> rfl
  · obtain ⟨v, rfl⟩ := jamRow_cases hk h
    cases r <;> rfl
  · cases i <;> cases hk
    cases h
    cases r <;> rfl

/-- What each row of a list keeps, the rows keep. -/
theorem runRows_keeps {α : Type} {g : State → α} {l : List Instr}
    (hrow : ∀ i ∈ l, ∀ s t, exec i s = .next t → g t = g s) {s t : State} (h : runRows l s = .next t) :
    g t = g s := by
  induction l generalizing s with
  | nil => cases h; rfl
  | cons i rest ih =>
    obtain ⟨u, hu, hcase⟩ := runRows_cons_eq_next_iff.mp h
    have hfirst : g u = g s := hrow i List.mem_cons_self s u hu
    obtain ⟨-, rfl⟩ | ⟨-, hrest⟩ := hcase
    · exact hfirst
    · exact (ih (fun j hj => hrow j (List.mem_cons_of_mem i hj)) hrest).trans hfirst

/-- A word has the read's row exactly where `RD` is set (R72). -/
theorem memRd_mem_fieldRows_iff {f : Fields} : .memRd ∈ fieldRows f .memOps ↔ f.memOps.getLsbD 1 = true := by
  rw [fieldRows, mem_maskRows (by decide), mem_setBitRows (by decide)]
  simp [memRows]

/-! ### The registers and the flags after a cycle -/

/-- A destination after a cycle without a fault; a read overwrites MDR (R150, R175). -/
theorem DestReg.get_of_ran (r : DestReg) {s t : State} (h : Ran s t) (hr : r ≠ .mdr ∨ wantsRead s = false) :
    r.get t = distributed s r.bit (r.get s) := by
  obtain ⟨w, hw, rfl⟩ := ran_afterDistributor h
  have hrow : ∀ i ∈ rowsAfterDistributor (fieldsAt s), ∀ u v, exec i u = .next v → r.get v = r.get u := by
    intro i hi u v he
    obtain ⟨hk, hfield⟩ := mem_rowsAfterDistributor hi
    refine exec_keeps_dest hk (hr.imp_right fun hread => ?_) he
    rintro rfl
    exact absurd (memRd_mem_fieldRows_iff.mp hfield) (by simpa [wantsRead] using hread)
  calc r.get (endCycle w)
    _ = r.get w := by cases r <;> rfl
    _ = r.get (afterDistributor s) := runRows_keeps hrow hw
    _ = distributed s r.bit (r.get (busesDriven s)) := r.get_distribute _ _
    _ = distributed s r.bit (r.get s) := by rw [get_busesDriven]

theorem DestReg.get_eq_cValue_of_ran (r : DestReg) {s t : State} (h : Ran s t) (hr : r ≠ .mdr ∨ wantsRead s = false)
    (hsel : selectsDest s r.bit = true) : r.get t = cValue s := by
  rw [r.get_of_ran h hr, distributed, if_pos hsel]

/-- The flags after a cycle without a fault are those of the ALU result (R131). -/
theorem flags_of_ran {s t : State} (h : Ran s t) : t.n = flagN (rValue s) ∧ t.z = flagZ (rValue s) := by
  obtain ⟨w, hw, rfl⟩ := ran_afterDistributor h
  have hrow : ∀ i ∈ rowsAfterDistributor (fieldsAt s), ∀ u v, exec i u = .next v → (v.n, v.z) = (u.n, u.z) := by
    intro i hi u v he
    have hk : i.kind ≠ .aluOp := fun hk => absurd (hk ▸ (mem_rowsAfterDistributor hi).1) (by decide)
    exact Prod.ext_iff.mpr (exec_keeps_flags hk he)
  exact Prod.ext_iff.mp (runRows_keeps (g := fun u => (u.n, u.z)) hrow hw)

/-- Settles O40: the distributor writes the selected registers, and of the rows after it only the read writes one, MDR;
the flags are the ALU row's. -/
theorem selectedRegistersHoldTheCBusValue : Obligations.SelectedRegistersHoldTheCBusValue := by
  unfold Obligations.SelectedRegistersHoldTheCBusValue
  intro s t h
  have hdest : ∀ r : DestReg, r ≠ .mdr → selectsDest s r.bit = true → r.get t = cValue s := fun r hr =>
    r.get_eq_cValue_of_ran h (.inl hr)
  obtain ⟨hn, hz⟩ := flags_of_ran h
  rw [hn, hz, flagN_eq, flagZ_eq, decide_eq_true_iff, decide_eq_true_iff]
  exact ⟨hdest .mar nofun, fun hsel hread => DestReg.get_eq_cValue_of_ran .mdr h (.inr hread) hsel, hdest .pc nofun,
    hdest .sp nofun, hdest .lv nofun, hdest .cpp nofun, hdest .tos nofun, hdest .opc nofun, hdest .h nofun, Iff.rfl,
    Iff.rfl⟩

end Sys2Proof.Machine
end

/-! ## The memory access controller (43_memory_unit.md R170 to R180) -/

section
namespace Sys2Proof.Machine

/-! ### The bytes of a word -/

/-- Bits 8k+7 to 8k as a quotient and a remainder (20_memory.md R55). -/
theorem toNat_wordByte (v : Word) (k : Nat) : (wordByte v k).toNat = v.toNat / 2 ^ (8 * k) % 2 ^ 8 := by
  rw [wordByte, BitVec.extractLsb'_toNat, Nat.shiftRight_eq_div_pow]

theorem toNat_eq_sum_wordByte (v : Word) :
    v.toNat = (wordByte v 0).toNat + 2 ^ 8 * (wordByte v 1).toNat + 2 ^ 16 * (wordByte v 2).toNat
      + 2 ^ 24 * (wordByte v 3).toNat := by
  have hv := v.isLt
  simp only [toNat_wordByte]
  omega

theorem toNat_readWord (m : Memory) (a : Nat) :
    (m.readWord a).toNat = (m.readByte a).toNat + 2 ^ 8 * (m.readByte (a + 1)).toNat
      + 2 ^ 16 * (m.readByte (a + 2)).toNat + 2 ^ 24 * (m.readByte (a + 3)).toNat := by
  rw [toNat_eq_sum_wordByte, wordByte_readWord m a (k := 0) (by omega), wordByte_readWord m a (k := 1) (by omega),
    wordByte_readWord m a (k := 2) (by omega), wordByte_readWord m a (k := 3) (by omega), Nat.add_zero]

theorem toNat_readByte_writeWord {m : Memory} (h : m.wf = true) (a : Nat) (v : Word) {k : Nat} (hk : k < 4) :
    ((m.writeWord a v).readByte (a + k)).toNat = v.toNat / 2 ^ (8 * k) % 2 ^ 8 := by
  rw [readByte_writeWord h, if_pos (by omega), Nat.add_sub_cancel_left, toNat_wordByte]

theorem readByte_writeWord_outside {m : Memory} (h : m.wf = true) {a : Nat} (v : Word) {b : Nat}
    (hb : b < a ∨ a + 4 ≤ b) : (m.writeWord a v).readByte b = m.readByte b := by
  rw [readByte_writeWord h, if_neg (by omega)]

/-! ### The rows one by one -/

theorem offsetInfo_toNat (v : Word) : offsetInfo v.toNat = v := by
  rw [offsetInfo, BitVec.ofNat_toNat, BitVec.setWidth_eq]

theorem offsetInfo_eq_mod (a : Nat) : offsetInfo a = BitVec.ofNat 32 (a % 2 ^ 32) :=
  BitVec.eq_of_toNat_eq (by simp [offsetInfo])

/-- Settles O21: the two sides of the range test. -/
theorem fetchRow : Obligations.FetchRow := by
  unfold Obligations.FetchRow
  intro s
  constructor
  · exact fun hin => execMemFetch_inRange hin
  · intro hout
    have hfault := execMemFetch_outOfRange (Nat.lt_succ_of_le hout)
    rw [offsetInfo_toNat] at hfault
    exact hfault

/-- Settles O22: the word that the read takes is spelled by its four bytes. -/
theorem readRow : Obligations.ReadRow := by
  unfold Obligations.ReadRow
  intro s
  constructor
  · exact fun hin => ⟨_, execMemRd_inRange hin, toNat_readWord _ _⟩
  · intro hout
    rw [← offsetInfo_eq_mod]
    exact execMemRd_outOfRange hout

/-- Settles O23: on a canonical memory a byte reads as MDR's inside the written word and as before outside it. -/
theorem writeRow : Obligations.WriteRow := by
  unfold Obligations.WriteRow
  intro s hwf
  constructor
  · exact fun hin => ⟨_, execMemWr_inRange hin, fun k hk => toNat_readByte_writeWord hwf _ _ hk,
      fun a ha => readByte_writeWord_outside hwf _ ha⟩
  · intro hout
    rw [← offsetInfo_eq_mod]
    exact execMemWr_outOfRange hout

/-! ### The rows of a mask -/

/-- The fetch, where its bit is set (R172). -/
def State.fetchIf (s : State) (b : Bool) : State :=
  { s with mbr := if b then Memory.readByte s.mem s.pc.toNat else s.mbr }

/-- The read, where its bit is set (R174). -/
def State.readIf (s : State) (b : Bool) : State :=
  { s with mdr := if b then Memory.readWord s.mem (byteOffset s.mar) else s.mdr }

/-- The write, where its bit is set (R176). -/
def State.writeIf (s : State) (b : Bool) : State :=
  { s with mem := if b then Memory.writeWord s.mem (byteOffset s.mar) s.mdr else s.mem }

/-- The accesses of a `mem_ops` mask: fetch, then read, then write (R170). -/
def State.access (s : State) (m : BitVec 3) : State :=
  ((s.fetchIf (m.getLsbD 0)).readIf (m.getLsbD 1)).writeIf (m.getLsbD 2)

/-- A mask whose first row raises a fault exactly outside `P` and otherwise answers `u`: without a fault the other rows
run on from `u`, which is the same state where the row's bit is clear. -/
theorem runRows_setBitRows_cons_iff {n : Nat} {v : BitVec n} {k : Nat} {i : Instr} {rest : List Instr} {s u w : State}
    {P : Prop} (hin : P → v.getLsbD k = true → exec i s = .next u)
    (hout : ¬ P → ∃ t, exec i s = .next t ∧ t.fault ≠ none) (hclear : v.getLsbD k = false → s = u)
    (hu : u.fault = none) (hw : w.fault = none) :
    runRows (setBitRows v k (i :: rest)) s = .next w ↔
      (v.getLsbD k = true → P) ∧ runRows (setBitRows v (k + 1) rest) u = .next w := by
  rw [setBitRows]
  cases hb : v.getLsbD k with
  | false => simp [hclear hb]
  | true =>
    by_cases hP : P
    · simp [runRows_cons (hin hP hb) hu, hP]
    · obtain ⟨t, ht, hft⟩ := hout hP
      have hne : t ≠ w := fun h => hft (h ▸ hw)
      simp [runRows_cons_fault ht (Option.isSome_iff_ne_none.mpr hft), hP, hne]

/-- The rows of a `mem_ops` mask run to their end without a fault exactly where its accesses are in range. -/
theorem runRows_memRows_iff {m : BitVec 3} {s w : State} (hs : s.fault = none) (hw : w.fault = none) :
    runRows (maskRows m memRows .memNone) s = .next w ↔
      (m.getLsbD 0 = true → s.pc.toNat + 1 ≤ s.params.memSize) ∧
      (m.getLsbD 1 = true → byteOffset s.mar + 4 ≤ s.params.memSize) ∧
      (m.getLsbD 2 = true → byteOffset s.mar + 4 ≤ s.params.memSize) ∧ w = s.access m := by
  have hfetch (rest : List Instr) := runRows_setBitRows_cons_iff (v := m) (k := 0) (i := .memFetch) (rest := rest)
    (u := s.fetchIf (m.getLsbD 0)) (P := s.pc.toNat + 1 ≤ s.params.memSize)
    (fun hr hb => by rw [hb]; exact execMemFetch_inRange hr)
    (fun hr => ⟨_, execMemFetch_outOfRange (Nat.not_le.mp hr), nofun⟩) (fun hb => by rw [hb]; rfl) hs hw
  have hread (rest : List Instr) := runRows_setBitRows_cons_iff (v := m) (k := 1) (i := .memRd) (rest := rest)
    (s := s.fetchIf (m.getLsbD 0)) (u := (s.fetchIf (m.getLsbD 0)).readIf (m.getLsbD 1))
    (P := byteOffset s.mar + 4 ≤ s.params.memSize)
    (fun hr hb => by rw [hb]; exact execMemRd_inRange hr)
    (fun hr => ⟨_, execMemRd_outOfRange (Nat.not_le.mp hr), nofun⟩) (fun hb => by rw [hb]; rfl) hs hw
  have hwrite (rest : List Instr) := runRows_setBitRows_cons_iff (v := m) (k := 2) (i := .memWr) (rest := rest)
    (s := (s.fetchIf (m.getLsbD 0)).readIf (m.getLsbD 1)) (u := s.access m)
    (P := byteOffset s.mar + 4 ≤ s.params.memSize)
    (fun hr hb => by rw [State.access, hb]; exact execMemWr_inRange hr)
    (fun hr => ⟨_, execMemWr_outOfRange (Nat.not_le.mp hr), nofun⟩) (fun hb => by rw [State.access, hb]; rfl) hs hw
  rw [runRows_maskRows rfl hs, memRows, hfetch, hread, hwrite, setBitRows, runRows_nil, Host.Outcome.next.injEq,
    eq_comm (a := w)]

/-- Settles O24: the accesses of the mask, one after the other. -/
theorem memoryUnitRunsFetchReadWrite : Obligations.MemoryUnitRunsFetchReadWrite := by
  unfold Obligations.MemoryUnitRunsFetchReadWrite
  refine ⟨fun s => rfl, fun m s hs hfetch hword => ⟨_, rfl, ?_⟩⟩
  have hrun : runRows (maskRows m memRows .memNone) s = .next (s.access m) :=
    (runRows_memRows_iff hs (w := s.access m) hs).mpr
      ⟨hfetch, fun hread => hword (.inl hread), fun hwrite => hword (.inr hwrite), rfl⟩
  exact hrun

/-! ### The memory unit in a cycle -/

theorem runRows_append_unfaulted {l l' : List Instr} {s t : State} (hs : s.fault = none)
    (h : runRows (l ++ l') s = .next t) (ht : t.fault = none) :
    ∃ u, runRows l s = .next u ∧ u.fault = none ∧ runRows l' u = .next t := by
  induction l generalizing s with
  | nil => exact ⟨s, rfl, hs, h⟩
  | cons i rest ih =>
    obtain ⟨u, hi, hu, hrest⟩ := runRows_cons_unfaulted h ht
    rw [runRows_cons hi hu]
    exact ih hu hrest

/-- The rows of a microinstruction that stand after the MEM rows (R211). -/
def rowsAfterMemory (f : Fields) : List Instr := [FieldKind.jump, .nextAddr].flatMap (fieldRows f)

theorem rowsAfterDistributor_eq_append (f : Fields) :
    rowsAfterDistributor f = maskRows f.memOps memRows .memNone ++ rowsAfterMemory f := rfl

/-- What the memory unit writes: MBR, MDR and the memory (R172, R174, R176). -/
def memoryOutputs (s : State) : Byte × Word × Memory := (s.mbr, s.mdr, s.mem)

theorem exec_keeps_memoryOutputs {f : Fields} {i : Instr} (hi : i ∈ rowsAfterMemory f) {s t : State}
    (h : exec i s = .next t) : memoryOutputs t = memoryOutputs s := by
  obtain ⟨k, hk, hfield⟩ := List.mem_flatMap.mp hi
  obtain rfl := fieldRows_kind f k i hfield
  simp only [List.mem_cons, List.not_mem_nil, or_false] at hk
  obtain hk | hk := hk
  · obtain ⟨v, rfl⟩ := jamRow_cases hk h
    rfl
  · cases i <;> cases hk
    cases h
    rfl

@[simp] theorem distribute_mbr (s : State) (d : BitVec 9) : (s.distribute d).mbr = s.mbr := rfl

@[simp] theorem distribute_mem (s : State) (d : BitVec 9) : (s.distribute d).mem = s.mem := rfl

theorem DestReg.get_afterDistributor (r : DestReg) (s : State) :
    r.get (afterDistributor s) = distributed s r.bit (r.get s) := by
  rw [afterDistributor, r.get_distribute, r.get_busesDriven, distributed, selectsDest]
  rfl

theorem memoryOutputs_access_afterDistributor (s : State) :
    memoryOutputs ((afterDistributor s).access (fieldsAt s).memOps) = (mbrAfter s, mdrAfter s, memAfter s) := by
  have hmar : (afterDistributor s).mar = marAfter s := DestReg.get_afterDistributor .mar s
  have hmdr : (afterDistributor s).mdr = distributed s 1 s.mdr := DestReg.get_afterDistributor .mdr s
  have hpc : (afterDistributor s).pc = pcAfter s := DestReg.get_afterDistributor .pc s
  have hmem : (afterDistributor s).mem = s.mem := by simp [afterDistributor, busesDriven]
  have hmbr : (afterDistributor s).mbr = s.mbr := by simp [afterDistributor, busesDriven]
  simp only [memoryOutputs, State.access, State.fetchIf, State.readIf, State.writeIf, hmar, hmdr, hpc, hmem, hmbr]
  rfl

/-- A cycle without a fault leaves what the closed form of the memory unit says (R171). -/
theorem memoryOutputs_of_ran {s t : State} (h : Ran s t) :
    t.mbr = mbrAfter s ∧ t.mdr = mdrAfter s ∧ t.mem = memAfter s := by
  have hs : (afterDistributor s).fault = none := by simpa [afterDistributor, busesDriven] using (ran_iff.mp h).1
  obtain ⟨w, hw, rfl⟩ := ran_afterDistributor h
  rw [rowsAfterDistributor_eq_append] at hw
  obtain ⟨u, hmem, hu, hrest⟩ := runRows_append_unfaulted hs hw h.2
  obtain ⟨-, -, -, rfl⟩ := (runRows_memRows_iff hs hu).mp hmem
  have hkeep : memoryOutputs w = (mbrAfter s, mdrAfter s, memAfter s) :=
    (runRows_keeps (fun _ hi _ _ he => exec_keeps_memoryOutputs hi he) hrest).trans
      (memoryOutputs_access_afterDistributor s)
  simpa [memoryOutputs] using hkeep

theorem byteOffset_of_ran {s t : State} (h : Ran s t) : byteOffset (marAfter s) = t.mar.toNat * 4 := by
  have hmar : t.mar = marAfter s := DestReg.get_of_ran .mar h (.inl nofun)
  rw [← hmar, byteOffset]

theorem mdr_of_ran_read {s t : State} (h : Ran s t) (hread : wantsRead s = true) :
    t.mdr = Memory.readWord s.mem (t.mar.toNat * 4) := by
  obtain ⟨-, hmdr, -⟩ := memoryOutputs_of_ran h
  rw [hmdr, mdrAfter, if_pos hread, byteOffset_of_ran h]

theorem mem_of_ran_write {s t : State} (h : Ran s t) (hwrite : wantsWrite s = true) :
    t.mem = Memory.writeWord s.mem (t.mar.toNat * 4) t.mdr := by
  obtain ⟨-, hmdr, hmem⟩ := memoryOutputs_of_ran h
  rw [hmem, memAfter, if_pos hwrite, byteOffset_of_ran h, hmdr]

/-- Settles O41: the read runs after the distributor, on the memory of the cycle's start. -/
theorem readOverwritesTheCBusValue : Obligations.ReadOverwritesTheCBusValue := by
  unfold Obligations.ReadOverwritesTheCBusValue
  exact fun s t h hread => mdr_of_ran_read h hread

/-- Settles O42: the write stores back the word that the read took from the same address. -/
theorem readAndWriteInOneCycle : Obligations.ReadAndWriteInOneCycle := by
  unfold Obligations.ReadAndWriteInOneCycle
  intro s t hwf h hread hwrite
  have hmdr := mdr_of_ran_read h hread
  refine ⟨?_, hmdr⟩
  rw [mem_of_ran_write h hwrite, hmdr, writeWord_readWord hwf]

/-- Settles O43: the fetch runs after the distributor and before the write. -/
theorem fetchSeesTheOldByteAtTheNewPc : Obligations.FetchSeesTheOldByteAtTheNewPc := by
  unfold Obligations.FetchSeesTheOldByteAtTheNewPc
  intro s t h hfetch
  obtain ⟨hmbr, -, -⟩ := memoryOutputs_of_ran h
  have hpc : t.pc = pcAfter s := DestReg.get_of_ran .pc h (.inl nofun)
  rw [hmbr, mbrAfter, if_pos hfetch, hpc]

/-- Settles O44: the write runs last, on the MDR that the distributor or the read left. -/
theorem writeStoresTheNewMdr : Obligations.WriteStoresTheNewMdr := by
  unfold Obligations.WriteStoresTheNewMdr
  intro s t hwf h hwrite k hk
  rw [mem_of_ran_write h hwrite, toNat_readByte_writeWord hwf _ _ hk]

end Sys2Proof.Machine
end

/-! ## The next-address resolver (44_next_address.md R190 to R196) -/

section
namespace Sys2Proof.Machine

/-! ### The rows one by one -/

/-- A contribution ORed into the one that stands (R196). -/
def State.orContrib (s : State) (c : CsAddr) : State := s.setContrib (s.bus.contrib ||| c)

@[simp] theorem orContrib_zero (s : State) : s.orContrib 0#9 = s := by
  rw [State.orContrib, BitVec.or_zero]
  rfl

theorem exec_jamN (s : State) : exec .jamN s = .next (s.orContrib (flagBit8 s.n)) := rfl

theorem exec_jamZ (s : State) : exec .jamZ s = .next (s.orContrib (flagBit8 s.z)) := rfl

theorem exec_jamMpc (s : State) : exec .jamMpc s = .next (s.orContrib (s.mbr.setWidth 9)) := rfl

theorem flagBit8_eq_ite (f : Bool) : flagBit8 f = if f then 0x100 else 0 := by
  cases f <;> rfl

/-- Settles O27: the arms, with the flag's bit 8 and the byte's extension written as the statement writes them. -/
theorem jamAndNextRows : Obligations.JamAndNextRows := by
  unfold Obligations.JamAndNextRows
  intro s
  rw [exec_jamN, exec_jamZ, exec_jamMpc, flagBit8_eq_ite, flagBit8_eq_ite, BitVec.ofNat_toNat]
  exact ⟨rfl, rfl, rfl, rfl, fun a => rfl⟩

/-! ### The rows of a mask -/

/-- The contributions of a `jump` mask, one after the other (R191 to R193). -/
def State.jam (s : State) (j : BitVec 3) : State :=
  ((s.orContrib (if j.getLsbD 0 then flagBit8 s.n else 0)).orContrib
    (if j.getLsbD 1 then flagBit8 s.z else 0)).orContrib (if j.getLsbD 2 then s.mbr.setWidth 9 else 0)

theorem runRows_setBitRows_jam {j : BitVec 3} {k : Nat} {i : Instr} {rest : List Instr} {s : State} {c : CsAddr}
    (hi : exec i s = .next (s.orContrib c)) (hs : s.fault = none) :
    runRows (setBitRows j k (i :: rest)) s =
      runRows (setBitRows j (k + 1) rest) (s.orContrib (if j.getLsbD k then c else 0)) := by
  rw [setBitRows]
  cases j.getLsbD k with
  | true => exact runRows_cons hi hs
  | false => simp

/-- The row of the empty mask sets the contribution to 0 (R194), which is no change where none stands yet. -/
theorem exec_jamNone_idle {s : State} (hc : s.bus.contrib = 0) : exec .jamNone s = .next s := by
  change Host.Outcome.next (s.setContrib 0) = _
  rw [State.setContrib, ← hc]

theorem runRows_jamRows (j : BitVec 3) {s : State} (hs : s.fault = none) (hc : s.bus.contrib = 0) :
    runRows (maskRows j jamRows .jamNone) s = .next (s.jam j) := by
  rw [runRows_maskRows (exec_jamNone_idle hc) hs, jamRows, runRows_setBitRows_jam (exec_jamN _),
    runRows_setBitRows_jam (exec_jamZ _), runRows_setBitRows_jam (exec_jamMpc _)]
  · rfl
  all_goals exact hs

theorem ite_flagBit8 (b f : Bool) : (if b then flagBit8 f else 0#9) = if b && f then 0x100#9 else 0#9 := by
  cases b with
  | true => exact flagBit8_eq_ite f
  | false => rfl

/-- The address that the NEXT row reads off the mask's contributions is the closed form's (R196). -/
theorem or_contrib_jam (a : CsAddr) (j : BitVec 3) {s : State} (hc : s.bus.contrib = 0) :
    a ||| (s.jam j).bus.contrib = resolve a s.n s.z s.mbr j := by
  simp only [State.jam, State.orContrib, setContrib_bus, hc, ite_flagBit8, resolve, BitVec.ofNat_eq_ofNat,
    BitVec.zero_or, BitVec.or_assoc]

/-- The rows of `jump` and `next_addr` (R195, R196). -/
theorem runRows_resolver (a : CsAddr) (j : BitVec 3) {s : State} (hs : s.fault = none) (hc : s.bus.contrib = 0) :
    runRows (maskRows j jamRows .jamNone ++ [.nextAddr a]) s =
      .next { s.jam j with mpc := resolve a s.n s.z s.mbr j } := by
  have hf : (s.jam j).fault = none := hs
  have hnext : exec (.nextAddr a) (s.jam j) = .next { s.jam j with mpc := resolve a s.n s.z s.mbr j } := by
    rw [← or_contrib_jam a j hc]
    rfl
  rw [runRows_append (runRows_jamRows j hs hc) hf, runRows_cons hnext hf, runRows_nil]

/-- Settles O28: the mask's rows write the contribution on the buses, the NEXT row MPC, and no row anything else. -/
theorem resolverOrsTheContributions : Obligations.ResolverOrsTheContributions := by
  unfold Obligations.ResolverOrsTheContributions
  exact fun a j s hs hc => ⟨_, runRows_resolver a j hs hc, rfl⟩

/-! ### The resolver in a cycle -/

/-- The working state after the memory unit, where its accesses are in range (R171). -/
def afterMemory (s : State) : State := (afterDistributor s).access (fieldsAt s).memOps

/-- No row before the JAM rows contributes to the next address: a cycle begins with idle buses (R43). -/
theorem afterMemory_contrib (s : State) : (afterMemory s).bus.contrib = 0 := rfl

/-- A cycle without a fault passes the memory unit; the resolver's rows run on from there (R211). -/
theorem ran_afterMemory {s t : State} (h : Ran s t) :
    ∃ w, runRows (rowsAfterMemory (fieldsAt s)) (afterMemory s) = .next w ∧ t = endCycle w := by
  have hs : (afterDistributor s).fault = none := (ran_iff.mp h).1
  obtain ⟨w, hw, rfl⟩ := ran_afterDistributor h
  rw [rowsAfterDistributor_eq_append] at hw
  obtain ⟨u, hmem, hu, hrest⟩ := runRows_append_unfaulted hs hw h.2
  obtain ⟨-, -, -, rfl⟩ := (runRows_memRows_iff hs hu).mp hmem
  exact ⟨w, hrest, rfl⟩

theorem rowsAfterMemory_eq_append (f : Fields) :
    rowsAfterMemory f = maskRows f.jump jamRows .jamNone ++ [.nextAddr f.nextAddr] := rfl

/-- The resolver's rows leave the flags and MBR, so MPC is resolved from those that the cycle leaves (R190). -/
theorem mpc_of_ran {s t : State} (h : Ran s t) :
    t.mpc = resolve (fieldsAt s).nextAddr t.n t.z t.mbr (fieldsAt s).jump := by
  have hs : (afterMemory s).fault = none := (ran_iff.mp h).1
  obtain ⟨w, hw, rfl⟩ := ran_afterMemory h
  rw [rowsAfterMemory_eq_append, runRows_resolver _ _ hs (afterMemory_contrib s)] at hw
  cases hw
  rfl

theorem resolve_jmpc (a : CsAddr) (n z : Bool) (mbr : Byte) : resolve a n z mbr 4 = a ||| mbr.setWidth 9 := by
  simp [resolve]

/-- Settles O45: the resolver runs last, on the flags of the ALU row and, after a fetch, on the byte just fetched. -/
theorem nextAddressUsesThisCyclesFlagsAndByte : Obligations.NextAddressUsesThisCyclesFlagsAndByte := by
  unfold Obligations.NextAddressUsesThisCyclesFlagsAndByte
  intro s t h
  have hmpc := mpc_of_ran h
  refine ⟨hmpc, fun hfetch hjump => ?_⟩
  rw [hmpc, hjump, resolve_jmpc, fetchSeesTheOldByteAtTheNewPc s t h hfetch]

end Sys2Proof.Machine
end

/-! ## The cycle in closed form (45_cycle_driver.md R211 to R216, R221; 60_exceptions.md R231 to R239) -/

section
namespace Sys2Proof.Machine

/-! ### Rows and the faults that they check for -/

/-- The record that a row of the fault table leaves in FAULT (R232). -/
def FaultRow.record (r : FaultRow) (mpc : CsAddr) : FaultRecord := ⟨r.cause, r.info, mpc⟩

/-- The record of the first of the checks that holds (R238). -/
def firstRecord (checks : List FaultRow) (mpc : CsAddr) : Option FaultRecord :=
  (checks.find? fun r => r.holds).map fun r => r.record mpc

theorem firstFault_eq_firstRecord (s : State) : firstFault s = firstRecord (faultTable s) s.mpc := by
  rw [firstFault, firstRecord]
  cases (faultTable s).find? fun r => r.holds <;> rfl

theorem firstRecord_append (checks checks' : List FaultRow) (mpc : CsAddr) :
    firstRecord (checks ++ checks') mpc = (firstRecord checks mpc).or (firstRecord checks' mpc) := by
  rw [firstRecord, List.find?_append, Option.map_or]
  rfl

/-- The rows run from `s` to `u`, unless one of the checks holds: then they end with the fault of the first
that does. -/
def Passes (rows : List Instr) (s : State) (checks : List FaultRow) (u : State) : Prop :=
  ∃ v, runRows rows s = .next v ∧ v.fault = firstRecord checks s.mpc ∧ (v.fault = none → v = u)

theorem passes_of_runRows {rows : List Instr} {s u : State} (h : runRows rows s = .next u) (hu : u.fault = none) :
    Passes rows s [] u := ⟨u, h, hu, fun _ => rfl⟩

/-- A row with one check, which raises the check's fault where it holds. -/
theorem passes_row {i : Instr} {s u : State} {check : FaultRow}
    (hraise : check.holds = true → exec i s = .next (raiseFault check.cause check.info s))
    (hpass : check.holds = false → exec i s = .next u) (hu : u.fault = none) : Passes [i] s [check] u := by
  cases hc : check.holds with
  | true => exact ⟨_, runRows_cons_fault (hraise hc) rfl, by simp [firstRecord, FaultRow.record, hc], nofun⟩
  | false => exact ⟨u, runRows_cons (hpass hc) hu, by simp [firstRecord, hc, hu], fun _ => rfl⟩

theorem Passes.append {rows rows' : List Instr} {s u w : State} {checks checks' : List FaultRow}
    (h : Passes rows s checks u) (h' : Passes rows' u checks' w) (hs : s.fault = none) (hmpc : u.mpc = s.mpc) :
    Passes (rows ++ rows') s (checks ++ checks') w := by
  obtain ⟨v, hrun, hfault, hv⟩ := h
  rw [Passes, firstRecord_append, ← hfault]
  cases hf : v.fault with
  | some f => exact ⟨v, runRows_append_fault hrun hs (by rw [hf]; rfl), hf, fun h => by rw [hf] at h; cases h⟩
  | none =>
    obtain rfl := hv hf
    obtain ⟨v', hrun', hfault', hv'⟩ := h'
    exact ⟨v', (runRows_append hrun hf).trans hrun', by rw [hfault', hmpc, Option.none_or], hv'⟩

/-- Rows that run on to an unfaulted end take the way that their checks describe. -/
theorem Passes.of_unfaulted {rows rows' : List Instr} {s u w : State} {checks : List FaultRow}
    (h : Passes rows s checks u) (hs : s.fault = none) (hrun : runRows (rows ++ rows') s = .next w)
    (hw : w.fault = none) : runRows rows s = .next u ∧ u.fault = none ∧ runRows rows' u = .next w := by
  obtain ⟨v, hv, hvf, hrest⟩ := runRows_append_unfaulted hs hrun hw
  obtain ⟨v', hv', -, huv⟩ := h
  obtain rfl : v = v' := by rw [hv] at hv'; cases hv'; rfl
  obtain rfl := huv hvf
  exact ⟨hv, hvf, hrest⟩

/-! ### The rows up to the C-bus distributor -/

theorem bSource_eq_none_iff (s : State) (v : BitVec 4) : bSource s v = none ↔ 9 ≤ v.toNat := by
  rw [bSource]
  split <;> simp_all
  omega

theorem passes_bRow (v : BitVec 4) {s : State} (hs : s.fault = none) :
    Passes [valueRow bRows v.toNat .bMdr] s
      [⟨s.params.strict && decide (9 ≤ v.toNat), .invalidBSelect, v.setWidth 32⟩]
      (s.driveB ((bSource s v).getD 0xFFFFFFFF)) := by
  have hexec : exec (valueRow bRows v.toNat .bMdr) s =
      (bSource s v).elim (invalidB v s) (fun x => .next (s.driveB x)) := by
    rw [exec_bRow (valueRow_kind (by decide) rfl _), placed_value_valueRow (by decide) v.isLt, BitVec.ofNat_toNat,
      BitVec.setWidth_eq]
  refine passes_row (fun hc => ?_) (fun hc => ?_) hs
  · simp only [Bool.and_eq_true, decide_eq_true_eq, ← bSource_eq_none_iff s] at hc
    rw [hexec, hc.2, Option.elim_none, invalidB_strict hc.1]
  · cases hb : bSource s v with
    | some x => rw [hexec, hb]; rfl
    | none =>
      have hstrict : s.params.strict = false := by simpa [(bSource_eq_none_iff s v).mp hb] using hc
      rw [hexec, hb, Option.elim_none, invalidB_permissive hstrict, Option.getD_none]

theorem passes_aluRow (code : BitVec 6) {s : State} (hs : s.fault = none) {r : Word}
    (hr : r = (aluFnOf s.params code).elim 0 fun f => aluResult f s.h s.bus.b) :
    Passes [valueRow aluRows code.toNat .alu0] s
      [⟨s.params.strict && (aluFnOf s.params code).isNone, .invalidAluOp, code.setWidth 32⟩]
      (s.setResult r) := by
  subst hr
  refine passes_row (fun hc => ?_) (fun hc => ?_) hs <;> rw [exec_aluRow_of_code]
  · rw [Bool.and_eq_true, Option.isNone_iff_eq_none] at hc
    exact aluStep_strict hc.2 hc.1
  · cases hf : aluFnOf s.params code with
    | some f => rw [aluStep_mapped hf, aluEval_eq_aluResult]; rfl
    | none => rw [aluStep_permissive hf (by simpa [hf] using hc)]; rfl

theorem passes_shiftRow (v : BitVec 2) {s : State} (hs : s.fault = none) :
    Passes [valueRow shiftRows v.toNat .shNone] s [⟨s.params.strict && decide (v = 3), .invalidShift, 3⟩]
      (s.driveC (shifted v s.bus.r)) := by
  refine passes_row (fun hc => ?_) (fun hc => ?_) hs
  · rw [Bool.and_eq_true, decide_eq_true_eq] at hc
    obtain ⟨hstrict, rfl⟩ := hc
    exact execSh3_strict hstrict
  · obtain rfl | rfl | rfl | rfl := (by decide : ∀ v : BitVec 2, v = 0 ∨ v = 1 ∨ v = 2 ∨ v = 3) v
    · rfl
    · rw [← shiftLeft8_eq_shifted]; rfl
    · rw [← shiftRight1_eq_shifted]; rfl
    · exact execSh3_permissive (by simpa using hc)

/-- The rows of a microinstruction up to the C rows (R211). -/
def rowsToDistributor (f : Fields) : List Instr :=
  [valueRow bRows f.bSelect.toNat .bMdr] ++ ([valueRow aluRows f.aluOp.toNat .alu0] ++
    ([valueRow shiftRows f.shift.toNat .shNone] ++ maskRows f.cDest destRows .cNone))

theorem passes_rowsToDistributor {s : State} (hs : s.fault = none) :
    Passes (rowsToDistributor (fieldsAt s)) (beginCycle s) ((faultTable s).take 3) (afterDistributor s) := by
  have hb : Passes _ (beginCycle s) _ ((beginCycle s).driveB (bValue s)) := passes_bRow (fieldsAt s).bSelect hs
  have halu := passes_aluRow (fieldsAt s).aluOp (s := (beginCycle s).driveB (bValue s)) hs (rValue_eq_elim s)
  have hshift : Passes _ (((beginCycle s).driveB (bValue s)).setResult (rValue s)) _ (busesDriven s) :=
    passes_shiftRow (fieldsAt s).shift hs
  have hdest : Passes _ (busesDriven s) _ (afterDistributor s) :=
    passes_of_runRows (runRows_destRows (fieldsAt s).cDest hs) hs
  exact hb.append (halu.append (hshift.append hdest hs rfl) hs rfl) hs rfl

/-! ### The memory unit -/

theorem setBitRows_cons {n : Nat} (v : BitVec n) (k : Nat) (i : Instr) (rest : List Instr) :
    setBitRows v k (i :: rest) = (if v.getLsbD k then [i] else []) ++ setBitRows v (k + 1) rest := by
  rw [setBitRows]
  split <;> rfl

theorem setBitRows_memRows (m : BitVec 3) :
    setBitRows m 0 memRows = (if m.getLsbD 0 then [.memFetch] else []) ++
      ((if m.getLsbD 1 then [.memRd] else []) ++ if m.getLsbD 2 then [.memWr] else []) := by
  rw [memRows, setBitRows_cons, setBitRows_cons, setBitRows_cons, setBitRows, List.append_nil]

/-- A row that stands where its bit is set: its check holds where the row stands and the access is out of range. -/
theorem passes_bitRow {b : Bool} {P : Prop} [Decidable P] {i : Instr} {s u : State} {cause : FaultCause} {info : Word}
    (hraise : P → exec i s = .next (raiseFault cause info s)) (hpass : b = true → ¬ P → exec i s = .next u)
    (hclear : b = false → s = u) (hu : u.fault = none) :
    Passes (if b then [i] else []) s [⟨b && decide P, cause, info⟩] u := by
  cases hb : b with
  | false => exact ⟨u, by rw [hclear hb]; rfl, hu, fun _ => rfl⟩
  | true => exact passes_row (fun hc => hraise (by simpa using hc)) (fun hc => hpass hb (by simpa using hc)) hu

/-- The accesses of a `mem_ops` mask and their range checks, in the order fetch, read, write (R170, R177, R178). -/
theorem passes_memRows (m : BitVec 3) {s : State} (hs : s.fault = none) :
    Passes (maskRows m memRows .memNone) s
      [⟨m.getLsbD 0 && decide (s.params.memSize ≤ s.pc.toNat), .fetchOutOfRange, s.pc⟩,
       ⟨m.getLsbD 1 && decide (s.params.memSize < s.mar.toNat * 4 + 4), .readOutOfRange,
          BitVec.ofNat 32 (s.mar.toNat * 4)⟩,
       ⟨m.getLsbD 2 && decide (s.params.memSize < s.mar.toNat * 4 + 4), .writeOutOfRange,
          BitVec.ofNat 32 (s.mar.toNat * 4)⟩]
      (s.access m) := by
  have hfetch := passes_bitRow (b := m.getLsbD 0) (P := s.params.memSize ≤ s.pc.toNat) (i := .memFetch)
    (u := s.fetchIf (m.getLsbD 0)) (info := s.pc)
    (fun hr => by rw [← offsetInfo_toNat s.pc]; exact execMemFetch_outOfRange (Nat.lt_succ_of_le hr))
    (fun hb hr => by rw [hb]; exact execMemFetch_inRange (Nat.lt_of_not_le hr)) (fun hb => by rw [hb]; rfl) hs
  have hread := passes_bitRow (b := m.getLsbD 1) (P := s.params.memSize < s.mar.toNat * 4 + 4) (i := .memRd)
    (s := s.fetchIf (m.getLsbD 0)) (u := (s.fetchIf (m.getLsbD 0)).readIf (m.getLsbD 1))
    (fun hr => execMemRd_outOfRange hr)
    (fun hb hr => by rw [hb]; exact execMemRd_inRange (Nat.le_of_not_lt hr)) (fun hb => by rw [hb]; rfl) hs
  have hwrite := passes_bitRow (b := m.getLsbD 2) (P := s.params.memSize < s.mar.toNat * 4 + 4) (i := .memWr)
    (s := (s.fetchIf (m.getLsbD 0)).readIf (m.getLsbD 1)) (u := s.access m)
    (fun hr => execMemWr_outOfRange hr)
    (fun hb hr => by rw [State.access, hb]; exact execMemWr_inRange (Nat.le_of_not_lt hr))
    (fun hb => by rw [State.access, hb]; rfl) hs
  rw [Passes, runRows_maskRows rfl hs, setBitRows_memRows]
  exact hfetch.append (hread.append hwrite hs rfl) hs rfl

/-! ### The whole cycle -/

theorem rowsOf_eq_append (f : Fields) :
    rowsOf f = rowsToDistributor f ++ (maskRows f.memOps memRows .memNone ++ rowsAfterMemory f) :=
  rowsOf_eq_cons f

theorem decode_fetchMir (s : State) :
    decode (fetchMir s) = rowsToDistributor (fieldsAt s) ++
      (maskRows (fieldsAt s).memOps memRows .memNone ++ rowsAfterMemory (fieldsAt s)) :=
  rowsOf_eq_append (fieldsAt s)

theorem afterMemory_outputs (s : State) :
    (afterMemory s).mbr = mbrAfter s ∧ (afterMemory s).mdr = mdrAfter s ∧ (afterMemory s).mem = memAfter s := by
  simpa only [afterMemory, memoryOutputs, Prod.mk.injEq] using memoryOutputs_access_afterDistributor s

theorem passes_memoryUnit {s : State} (hs : s.fault = none) :
    Passes (maskRows (fieldsAt s).memOps memRows .memNone) (afterDistributor s) ((faultTable s).drop 3)
      (afterMemory s) :=
  passes_memRows (fieldsAt s).memOps (s := afterDistributor s) hs

/-- The working state at the end of a cycle without a fault. -/
def afterResolver (s : State) : State :=
  { (afterMemory s).jam (fieldsAt s).jump with
    mpc := resolve (fieldsAt s).nextAddr (afterMemory s).n (afterMemory s).z (afterMemory s).mbr (fieldsAt s).jump }

/-- The rows of a cycle raise the first fault of the table that holds, and otherwise run to the resolver's end. -/
theorem passes_decode {s : State} (hs : s.fault = none) :
    Passes (decode (fetchMir s)) (beginCycle s) (faultTable s) (afterResolver s) := by
  have hresolve := passes_of_runRows
    (runRows_resolver (fieldsAt s).nextAddr (fieldsAt s).jump (s := afterMemory s) hs (afterMemory_contrib s)) hs
  rw [decode_fetchMir]
  exact (passes_rowsToDistributor hs).append ((passes_memoryUnit hs).append hresolve hs rfl) hs rfl

/-- The closed form's registers, flags, memory and MPC are those of the working state (R221). -/
theorem endCycle_afterResolver (s : State) : endCycle (afterResolver s) = cycleResult s := by
  obtain ⟨hmbr, hmdr, hmem⟩ := afterMemory_outputs s
  have hdest := fun r => DestReg.get_afterDistributor r s
  have hmpc : (afterResolver s).mpc = (cycleResult s).mpc := by
    rw [cycleResult, ← flagN_eq, ← flagZ_eq, ← hmbr]
    rfl
  rw [endCycle, cycleResult, State.mk.injEq]
  exact ⟨hdest .mar, hmdr, hdest .pc, hmbr, hdest .sp, hdest .lv, hdest .cpp, hdest .tos, hdest .opc, hdest .h, hmpc,
    rfl, flagN_eq _, flagZ_eq _, rfl, rfl, hmem, rfl, rfl⟩

theorem step_of_firstFault {s : State} {f : FaultRecord} (hs : s.fault = none) (hf : firstFault s = some f) :
    step s = .next { s with fault := some f } := by
  obtain ⟨v, hrun, hfault, -⟩ := passes_decode hs
  replace hfault : v.fault = some f := by rw [hfault, ← hf, firstFault_eq_firstRecord]; rfl
  rw [step_running hs, cycle_of_runRows hrun, commit_faulted (by rw [hfault]; rfl), abortCycle, hfault]

theorem step_of_noFault {s : State} (hs : s.fault = none) (hf : firstFault s = none) :
    step s = .next (cycleResult s) := by
  obtain ⟨v, hrun, hfault, hv⟩ := passes_decode hs
  replace hfault : v.fault = none := by rw [hfault, ← hf, firstFault_eq_firstRecord]; rfl
  obtain rfl := hv hfault
  rw [step_running hs, cycle_of_runRows hrun, commit_running hfault, endCycle_afterResolver]

/-- Settles O33: the rows raise the first fault of the table that holds, and otherwise leave the closed form's state. -/
theorem stepIsTheClosedFormCycle : Obligations.StepIsTheClosedFormCycle := by
  unfold Obligations.StepIsTheClosedFormCycle
  intro s
  rw [referenceStep]
  split
  · rename_i f hs
    exact step_stopped hs
  · rename_i hs
    split
    · rename_i f hf
      exact step_of_firstFault hs hf
    · rename_i hf
      exact step_of_noFault hs hf

/-! ### What a cycle leaves -/

/-- A cycle that raises no fault leaves the closed form's state. -/
theorem closedForm_of_ran {s t : State} (h : Ran s t) : firstFault s = none ∧ t = cycleResult s := by
  obtain ⟨hs, -⟩ := ran_iff.mp h
  obtain ⟨hstep, ht⟩ := h
  cases hf : firstFault s with
  | some f => rw [step_of_firstFault hs hf] at hstep; cases hstep; cases ht
  | none => rw [step_of_noFault hs hf] at hstep; cases hstep; exact ⟨rfl, rfl⟩

/-- A cycle that raises a fault records the first of the table that holds, and leaves nothing else. -/
theorem closedForm_of_faulted {s t : State} (h : Faulted s t) :
    ∃ f, firstFault s = some f ∧ t = { s with fault := some f } := by
  obtain ⟨hstep, ht⟩ := h
  obtain ⟨hs, -⟩ := step_eq_next_iff.mp hstep
  cases hf : firstFault s with
  | some f => rw [step_of_firstFault hs hf] at hstep; cases hstep; exact ⟨f, rfl, rfl⟩
  | none => rw [step_of_noFault hs hf] at hstep; cases hstep; exact absurd hs ht

/-- Settles O34: either the table's first fault or the closed form's state follows. -/
theorem stepExistsExactlyWhenNotFaulted : Obligations.StepExistsExactlyWhenNotFaulted := by
  unfold Obligations.StepExistsExactlyWhenNotFaulted
  refine fun s => ⟨fun hs => ?_, fun hs => ?_⟩
  · cases hf : firstFault s with
    | some f => exact ⟨_, step_of_firstFault hs hf⟩
    | none => exact ⟨_, step_of_noFault hs hf⟩
  · obtain ⟨f, hf⟩ := Option.ne_none_iff_exists'.mp hs
    exact step_stopped hf

/-- Settles O35: a fault of the table is recorded with the MPC of the cycle. -/
theorem faultingCycleKeepsNothingElse : Obligations.FaultingCycleKeepsNothingElse := by
  unfold Obligations.FaultingCycleKeepsNothingElse
  intro s t h
  obtain ⟨f, hf, rfl⟩ := closedForm_of_faulted h
  rw [firstFault_eq_firstRecord, firstRecord, Option.map_eq_some_iff] at hf
  obtain ⟨r, -, rfl⟩ := hf
  exact ⟨r.cause, r.info, rfl⟩

theorem readByte_memAfter_outside {s : State} (hwf : s.mem.wf = true) {a : Nat}
    (ha : a < (marAfter s).toNat * 4 ∨ (marAfter s).toNat * 4 + 4 ≤ a) :
    (memAfter s).readByte a = s.mem.readByte a := by
  rw [memAfter]
  split
  · exact readByte_writeWord_outside hwf _ ha
  · rfl

theorem distributed_of_not_selected (s : State) (k : Nat) (old : Word) (h : selectsDest s k = false) :
    distributed s k old = old := by
  rw [distributed, if_neg (by simp [h])]

/-- Settles O39: the closed form, field by field. -/
theorem cycleFrame : Obligations.CycleFrame := by
  unfold Obligations.CycleFrame
  intro s t hwf h
  obtain ⟨-, rfl⟩ := closedForm_of_ran h
  have hkeep := distributed_of_not_selected s
  refine ⟨rfl, hkeep 0 _, hkeep 2 _, hkeep 3 _, hkeep 4 _, hkeep 5 _, hkeep 6 _, hkeep 7 _, hkeep 8 _,
    fun hsel hread => ?_, fun hfetch => if_neg (by simp [hfetch]), fun hwrite => if_neg (by simp [hwrite]),
    fun a ha => readByte_memAfter_outside hwf ha, rfl, rfl, rfl, rfl⟩
  calc mdrAfter s
    _ = distributed s 1 s.mdr := if_neg (by simp [hread])
    _ = s.mdr := hkeep 1 _ hsel

/-! ### The step and runs of steps -/

/-- Settles O32: a step is a cycle, whose end keeps all or nothing; the rows run by their recursion. -/
theorem stepRunsTheDecodedRows : Obligations.StepRunsTheDecodedRows := by
  unfold Obligations.StepRunsTheDecodedRows
  refine ⟨?_, fun i rest s t h => ?_, runRows_nil⟩
  · rintro s w l hs rfl hw
    rw [step_running hs, cycle_of_runRows hw, commit]
    rfl
  · rw [runRows, h]

theorem runUntil_of_halt {halt : State → Bool} {s : State} (h : halt s = true) (k : Nat) : runUntil halt k s = s := by
  cases k with
  | zero => rfl
  | succ k => rw [runUntil, if_pos h]

theorem runUntil_of_faulted (halt : State → Bool) {s : State} (h : s.fault ≠ none) (k : Nat) :
    runUntil halt k s = s := by
  cases k with
  | zero => rfl
  | succ k =>
    rw [runUntil, (stepExistsExactlyWhenNotFaulted s).2 h]
    exact ite_self s

theorem runUntil_succ {halt : State → Bool} {s t : State} (hh : halt s = false) (h : step s = .next t) (k : Nat) :
    runUntil halt (k + 1) s = runUntil halt k t := by
  rw [runUntil, if_neg (by simp [hh]), h]

theorem runUntil_add (halt : State → Bool) (j k : Nat) (s : State) :
    runUntil halt (j + k) s = runUntil halt k (runUntil halt j s) := by
  induction j generalizing s with
  | zero => rw [Nat.zero_add, runUntil]
  | succ j ih =>
    cases hh : halt s with
    | true => simp only [runUntil_of_halt hh]
    | false =>
      by_cases hs : s.fault = none
      · obtain ⟨t, ht⟩ := (stepExistsExactlyWhenNotFaulted s).1 hs
        rw [Nat.succ_add, runUntil_succ hh ht, runUntil_succ hh ht, ih]
      · simp only [runUntil_of_faulted halt hs]

/-- Settles O59: a run that stops stays, and a run that goes on takes a step first. -/
theorem runsStopAtHaltOrFaultAndCompose : Obligations.RunsStopAtHaltOrFaultAndCompose := by
  unfold Obligations.RunsStopAtHaltOrFaultAndCompose
  exact fun halt s => ⟨fun k h => h.elim (fun hh => runUntil_of_halt hh k) (fun hs => runUntil_of_faulted halt hs k),
    fun k _ hh ht => runUntil_succ hh ht k, fun j k => runUntil_add halt j k s⟩

end Sys2Proof.Machine
end

/-! ## The ports of a cycle (45_cycle_driver.md R220, R222) -/

section
namespace Sys2Proof.Machine

/-! ### What a row issues -/

theorem issued_of_kind {i : Instr} (hk : i.kind ≠ .memOps) (s : State) : issued i s = [] := by
  cases i with
  | memFetch | memRd | memWr => exact absurd rfl hk
  | _ => rfl

theorem issued_memFetch {s : State} (h : s.pc.toNat + 1 ≤ s.params.memSize) :
    issued .memFetch s = [.fetch s.pc (Memory.readByte s.mem s.pc.toNat)] := by
  rw [issued, memReadByte_inRange h]

theorem issued_memRd {s : State} (h : byteOffset s.mar + 4 ≤ s.params.memSize) :
    issued .memRd s = [.read (BitVec.ofNat 34 (byteOffset s.mar)) (Memory.readWord s.mem (byteOffset s.mar))] := by
  rw [issued, memReadWord_inRange h]

theorem issued_memWr {s : State} (h : byteOffset s.mar + 4 ≤ s.params.memSize) :
    issued .memWr s = [.write (BitVec.ofNat 34 (byteOffset s.mar)) s.mdr] := by
  rw [issued, memWriteWord_inRange h]

theorem issued_length_le_one (i : Instr) (s : State) : (issued i s).length ≤ 1 := by
  by_cases hk : i.kind = .memOps
  · cases i <;> cases hk
    case memNone.refl => exact Nat.zero_le 1
    all_goals rw [issued]; split <;> simp
  · rw [issued_of_kind hk]
    exact Nat.zero_le 1

/-- A fetch of a byte of the memory (R58, R59). -/
def FetchInRange (size : Nat) (x : Transaction) : Prop := ∃ a d, x = .fetch a d ∧ a.toNat < size

/-- A read of an aligned word of the memory (R57, R59). -/
def ReadInRange (size : Nat) (x : Transaction) : Prop := ∃ a d, x = .read a d ∧ a.toNat % 4 = 0 ∧ a.toNat + 4 ≤ size

/-- A write of an aligned word of the memory (R57, R59). -/
def WriteInRange (size : Nat) (x : Transaction) : Prop := ∃ a d, x = .write a d ∧ a.toNat % 4 = 0 ∧ a.toNat + 4 ≤ size

theorem issued_memFetch_inRange (s : State) : ∀ x ∈ issued .memFetch s, FetchInRange s.params.memSize x := by
  rcases Nat.lt_or_ge s.params.memSize (s.pc.toNat + 1) with hr | hr
  · rw [issued, memReadByte_outOfRange hr]
    exact List.forall_mem_nil _
  · rw [issued_memFetch hr]
    exact List.forall_mem_singleton.mpr ⟨_, _, rfl, hr⟩

/-- The 34-bit address of a word is its byte offset, unwrapped, and aligned (R57, R222). -/
theorem wordAddress_inRange {mar : Word} {size : Nat} (h : byteOffset mar + 4 ≤ size) :
    (BitVec.ofNat 34 (byteOffset mar)).toNat % 4 = 0 ∧ (BitVec.ofNat 34 (byteOffset mar)).toNat + 4 ≤ size := by
  have hlt := mar.isLt
  rw [byteOffset] at h
  rw [byteOffset, BitVec.toNat_ofNat]
  omega

theorem issued_memRd_inRange (s : State) : ∀ x ∈ issued .memRd s, ReadInRange s.params.memSize x := by
  rcases Nat.lt_or_ge s.params.memSize (byteOffset s.mar + 4) with hr | hr
  · rw [issued, memReadWord_outOfRange hr]
    exact List.forall_mem_nil _
  · rw [issued_memRd hr]
    exact List.forall_mem_singleton.mpr ⟨_, _, rfl, wordAddress_inRange hr⟩

theorem issued_memWr_inRange (s : State) : ∀ x ∈ issued .memWr s, WriteInRange s.params.memSize x := by
  rcases Nat.lt_or_ge s.params.memSize (byteOffset s.mar + 4) with hr | hr
  · rw [issued, memWriteWord_outOfRange hr]
    exact List.forall_mem_nil _
  · rw [issued_memWr hr]
    exact List.forall_mem_singleton.mpr ⟨_, _, rfl, wordAddress_inRange hr⟩

/-! ### Every cycle: each row issues at most once -/

/-- What the row `i` issues in a cycle that begins with `s`: nothing, or its transaction on a state of the cycle. -/
def IssuedIn (s : State) (i : Instr) (x : List Transaction) : Prop :=
  x = [] ∨ ∃ u : State, u.params = s.params ∧ x = issued i u

section
variable {s : State} {i : Instr} {x : List Transaction} (h : IssuedIn s i x)
include h

theorem IssuedIn.of_params {s' : State} (hs : s.params = s'.params) : IssuedIn s' i x := by
  rwa [IssuedIn, ← hs]

theorem IssuedIn.eq_nil (hi : ∀ u, issued i u = []) : x = [] := by
  obtain rfl | ⟨u, -, rfl⟩ := h
  · rfl
  · exact hi u

theorem IssuedIn.ite (b : Bool) : IssuedIn s i (if b then x else []) := by
  cases b with
  | true => exact h
  | false => exact .inl rfl

theorem IssuedIn.length_le_one : x.length ≤ 1 := by
  obtain rfl | ⟨u, -, rfl⟩ := h
  · exact Nat.zero_le 1
  · exact issued_length_le_one i u

theorem IssuedIn.forall_mem {P : Nat → Transaction → Prop} (hP : ∀ u, ∀ y ∈ issued i u, P u.params.memSize y) :
    ∀ y ∈ x, P s.params.memSize y := by
  obtain rfl | ⟨u, hu, rfl⟩ := h
  · exact List.forall_mem_nil _
  · exact hu ▸ hP u

end

/-- The rows of a list without repetition issue one after the other, each at most once. -/
theorem transactions_eq_flatMap {l : List Instr} (hl : l.Nodup) (s : State) :
    ∃ g : Instr → List Transaction, (∀ i, IssuedIn s i (g i)) ∧ transactions l s = l.flatMap g := by
  induction l generalizing s with
  | nil => exact ⟨fun _ => [], fun _ => .inl rfl, rfl⟩
  | cons i rest ih =>
    obtain ⟨hi, hrest⟩ := List.nodup_cons.mp hl
    obtain ⟨t, ht, -⟩ := exec_answers i s
    have htail : ∃ g : Instr → List Transaction, (∀ j, IssuedIn s j (g j)) ∧
        (if t.fault.isSome then [] else transactions rest t) = rest.flatMap g := by
      split
      · exact ⟨fun _ => [], fun _ => .inl rfl, by simp⟩
      · obtain ⟨g, hg, hgrest⟩ := ih hrest t
        exact ⟨g, fun j => (hg j).of_params (exec_effect ht).params, hgrest⟩
    obtain ⟨g, hg, hgrest⟩ := htail
    refine ⟨Function.update g i (issued i s), fun j => ?_, ?_⟩
    · by_cases hj : j = i
      · rw [hj, Function.update_self]
        exact .inr ⟨s, rfl, rfl⟩
      · rw [Function.update_of_ne hj]
        exact hg j
    · have hsame : rest.flatMap (Function.update g i (issued i s)) = rest.flatMap g :=
        List.flatMap_congr fun j hj => Function.update_of_ne (ne_of_mem_of_not_mem hj hi) _ _
      rw [transactions, ht, List.flatMap_cons, Function.update_self, hsame, ← hgrest]

theorem kind_of_mem_rowsToDistributor {f : Fields} {i : Instr} (hi : i ∈ rowsToDistributor f) : i.kind ≠ .memOps := by
  have hfield : ∃ k ∈ [FieldKind.bSelect, .aluOp, .shift, .cDest], i ∈ fieldRows f k := by
    simpa [rowsToDistributor, fieldRows] using hi
  obtain ⟨k, hk, hi⟩ := hfield
  rw [fieldRows_kind f k i hi]
  rintro rfl
  exact absurd hk (by decide)

theorem kind_of_mem_rowsAfterMemory {f : Fields} {i : Instr} (hi : i ∈ rowsAfterMemory f) : i.kind ≠ .memOps := by
  obtain ⟨k, hk, hi⟩ := List.mem_flatMap.mp hi
  rw [fieldRows_kind f k i hi]
  rintro rfl
  exact absurd hk (by decide)

/-- Only the MEM rows of the set bits issue transactions. -/
theorem flatMap_decode {w : MicroWord} {g : Instr → List Transaction} {s : State} (hg : ∀ i, IssuedIn s i (g i)) :
    (decode w).flatMap g =
      (if (fieldsOf w).memOps.getLsbD 0 then g .memFetch else []) ++
        ((if (fieldsOf w).memOps.getLsbD 1 then g .memRd else []) ++
          (if (fieldsOf w).memOps.getLsbD 2 then g .memWr else [])) := by
  have hother : ∀ i : Instr, i.kind ≠ .memOps → g i = [] := fun i hk => (hg i).eq_nil (issued_of_kind hk)
  have hnone : g .memNone = [] := (hg .memNone).eq_nil fun _ => rfl
  have hbefore : (rowsToDistributor (fieldsOf w)).flatMap g = [] :=
    List.flatMap_eq_nil_iff.mpr fun i hi => hother i (kind_of_mem_rowsToDistributor hi)
  have hafter : (rowsAfterMemory (fieldsOf w)).flatMap g = [] :=
    List.flatMap_eq_nil_iff.mpr fun i hi => hother i (kind_of_mem_rowsAfterMemory hi)
  have hmask : (maskRows (fieldsOf w).memOps memRows .memNone).flatMap g =
      (setBitRows (fieldsOf w).memOps 0 memRows).flatMap g := by
    rw [maskRows]
    split
    · rename_i h
      simp [h, hnone]
    · rfl
  have hbit : ∀ (b : Bool) (i : Instr), (if b then [i] else []).flatMap g = if b then g i else [] := by
    intro b i
    cases b <;> simp
  rw [decode, rowsOf_eq_append, List.flatMap_append, List.flatMap_append, hbefore, hafter, hmask, List.nil_append,
    List.append_nil, setBitRows_memRows]
  simp only [List.flatMap_append, hbit]

theorem decode_nodup (w : MicroWord) : (decode w).Nodup :=
  (decode_pairwise w).imp fun hlt heq => absurd (heq ▸ hlt) (Nat.lt_irrefl _)

theorem cycleIO_eq_some_iff {s : State} {io : CycleIO} :
    cycleIO s = some io ↔ ∃ t, step s = .next t ∧
      io = ⟨s.mpc, fetchMir s, transactions (decode (fetchMir s)) (beginCycle s), t.fault⟩ := by
  rw [cycleIO]
  cases step s <;> simp [eq_comm]

/-- Settles O51: the MEM rows of the set bits issue one after the other, in the order of the bits. -/
theorem transactionsAreOrderedAndInRange : Obligations.TransactionsAreOrderedAndInRange := by
  unfold Obligations.TransactionsAreOrderedAndInRange
  intro s io hio
  obtain ⟨t, -, rfl⟩ := cycleIO_eq_some_iff.mp hio
  obtain ⟨g, hg, hmemory⟩ := transactions_eq_flatMap (decode_nodup (fetchMir s)) (beginCycle s)
  rw [flatMap_decode hg, ← List.append_assoc] at hmemory
  have hf := (hg .memFetch).ite (wantsFetch s)
  have hr := (hg .memRd).ite (wantsRead s)
  have hw := (hg .memWr).ite (wantsWrite s)
  exact ⟨rfl, rfl, _, _, _, hmemory, hf.length_le_one, hr.length_le_one, hw.length_le_one,
    hf.forall_mem issued_memFetch_inRange, hr.forall_mem issued_memRd_inRange, hw.forall_mem issued_memWr_inRange⟩

/-! ### A cycle without a fault: the transactions with their data -/

theorem transactions_nil (s : State) : transactions [] s = [] := rfl

theorem transactions_append {l l' : List Instr} {s u : State} (h : runRows l s = .next u) (hu : u.fault = none) :
    transactions (l ++ l') s = transactions l s ++ transactions l' u := by
  induction l generalizing s with
  | nil => cases h; rfl
  | cons i rest ih =>
    obtain ⟨t, hi, ht, hrest⟩ := runRows_cons_unfaulted h hu
    rw [List.cons_append, transactions, transactions, hi]
    simp only [ht, Option.isSome_none, Bool.false_eq_true, if_false, ih hrest, List.append_assoc]

theorem transactions_eq_nil {l : List Instr} (hl : ∀ i ∈ l, i.kind ≠ .memOps) (s : State) : transactions l s = [] := by
  induction l generalizing s with
  | nil => rfl
  | cons i rest ih =>
    obtain ⟨hi, hrest⟩ := List.forall_mem_cons.mp hl
    rw [transactions, issued_of_kind hi]
    split
    · split
      · rfl
      · exact ih hrest _
    · rfl
    · rfl

/-- A row that stands where its bit is set, and then the others. -/
theorem transactions_bitRow {b : Bool} {i : Instr} {rest : List Instr} {s u : State} {x : Transaction}
    (hexec : b = true → exec i s = .next u) (hissued : b = true → issued i s = [x]) (hclear : b = false → s = u)
    (hu : u.fault = none) :
    transactions ((if b then [i] else []) ++ rest) s = (if b then [x] else []) ++ transactions rest u := by
  cases hb : b with
  | false => rw [hclear hb]; rfl
  | true => simp [transactions, hexec hb, hissued hb, hu]

theorem transactions_maskRows_memRows (m : BitVec 3) {s : State} (hs : s.fault = none) :
    transactions (maskRows m memRows .memNone) s = transactions (setBitRows m 0 memRows) s := by
  rw [maskRows]
  split
  · rename_i h
    have hnone : exec .memNone s = .next s := rfl
    simp [h, transactions, hnone, hs, issued]
  · rfl

/-- The accesses of a `mem_ops` mask that are all in range, in the order fetch, read, write (R170, R222). -/
theorem transactions_memRows {m : BitVec 3} {s w : State} (hs : s.fault = none) (hw : w.fault = none)
    (h : runRows (maskRows m memRows .memNone) s = .next w) :
    transactions (maskRows m memRows .memNone) s =
      (if m.getLsbD 0 then [.fetch s.pc w.mbr] else []) ++
      ((if m.getLsbD 1 then
        [.read (BitVec.ofNat 34 (byteOffset s.mar)) (Memory.readWord s.mem (byteOffset s.mar))] else []) ++
      (if m.getLsbD 2 then [.write (BitVec.ofNat 34 (byteOffset s.mar)) w.mdr] else [])) := by
  obtain ⟨hfetch, hread, hwrite, rfl⟩ := (runRows_memRows_iff hs hw).mp h
  have hf := transactions_bitRow (b := m.getLsbD 0) (i := .memFetch) (u := s.fetchIf (m.getLsbD 0))
    (rest := (if m.getLsbD 1 then [.memRd] else []) ++ if m.getLsbD 2 then [.memWr] else [])
    (x := .fetch s.pc (s.access m).mbr) (fun hb => by rw [hb]; exact execMemFetch_inRange (hfetch hb))
    (fun hb => by rw [issued_memFetch (hfetch hb), State.access, hb]; rfl)
    (fun hb => by rw [hb]; rfl) hs
  have hr := transactions_bitRow (b := m.getLsbD 1) (i := .memRd) (s := s.fetchIf (m.getLsbD 0))
    (u := (s.fetchIf (m.getLsbD 0)).readIf (m.getLsbD 1)) (rest := if m.getLsbD 2 then [.memWr] else [])
    (fun hb => by rw [hb]; exact execMemRd_inRange (hread hb)) (fun hb => issued_memRd (hread hb))
    (fun hb => by rw [hb]; rfl) hs
  have hwr := transactions_bitRow (b := m.getLsbD 2) (i := .memWr) (rest := [])
    (s := (s.fetchIf (m.getLsbD 0)).readIf (m.getLsbD 1)) (u := s.access m)
    (fun hb => by rw [State.access, hb]; exact execMemWr_inRange (hwrite hb)) (fun hb => issued_memWr (hwrite hb))
    (fun hb => by rw [State.access, hb]; rfl) hs
  rw [List.append_nil, transactions_nil, List.append_nil] at hwr
  rw [transactions_maskRows_memRows m hs, setBitRows_memRows, hf, hr, hwr]
  rfl

/-- A cycle without a fault issues the transactions of its MEM rows, on the state that the distributor leaves. -/
theorem transactions_of_ran {s t : State} (h : Ran s t) :
    transactions (decode (fetchMir s)) (beginCycle s) =
      (if wantsFetch s then [.fetch t.pc t.mbr] else []) ++
      ((if wantsRead s then
        [.read (BitVec.ofNat 34 (t.mar.toNat * 4)) (Memory.readWord s.mem (t.mar.toNat * 4))] else []) ++
      (if wantsWrite s then [.write (BitVec.ofNat 34 (t.mar.toNat * 4)) t.mdr] else [])) := by
  obtain ⟨hs, w, hw, hwf, -⟩ := ran_iff.mp h
  obtain ⟨-, rfl⟩ := closedForm_of_ran h
  rw [decode_fetchMir] at hw ⊢
  obtain ⟨hdist, hdf, hw⟩ := (passes_rowsToDistributor hs).of_unfaulted hs hw hwf
  obtain ⟨hmem, hmf, -⟩ := (passes_memoryUnit hs).of_unfaulted hdf hw hwf
  rw [transactions_append hdist hdf, transactions_append hmem hmf,
    transactions_eq_nil (fun _ => kind_of_mem_rowsToDistributor),
    transactions_eq_nil (fun _ => kind_of_mem_rowsAfterMemory), List.nil_append, List.append_nil,
    transactions_memRows hdf hmf hmem]
  obtain ⟨hmbr, hmdr, -⟩ := afterMemory_outputs s
  rw [hmbr, hmdr]
  rfl

/-- Settles O52: the MEM rows run on what the distributor leaves, and the rows after them keep it. -/
theorem transactionsOfAnUnfaultedCycle : Obligations.TransactionsOfAnUnfaultedCycle := by
  unfold Obligations.TransactionsOfAnUnfaultedCycle
  intro s t io h hio
  obtain ⟨u, hu, rfl⟩ := cycleIO_eq_some_iff.mp hio
  obtain rfl : t = u := Host.Outcome.next.inj (h.1.symm.trans hu)
  rw [List.append_assoc]
  exact ⟨h.2, transactions_of_ran h⟩

end Sys2Proof.Machine
end

/-! ## Faults, modes and resets (60_exceptions.md R230 to R241; 70_reset_and_hazards.md R269) -/

section
namespace Sys2Proof.Machine

/-! ### The rows that can raise a fault -/

/-- A B row whose value names no source is an invalid source (R110). -/
theorem exec_invalidBRow {i : Instr} (hk : i.kind = .bSelect) (hi : 9 ≤ (BitVec.ofNat 4 i.placed.value).toNat)
    (s : State) : exec i s = invalidB (BitVec.ofNat 4 i.placed.value) s := by
  rw [exec_bRow hk, (bSource_eq_none_iff s _).mpr hi, Option.elim_none]

/-- Settles O10: the seven rows name no source, and an invalid source has one meaning in each mode. -/
theorem invalidBRows : Obligations.InvalidBRows := by
  unfold Obligations.InvalidBRows
  intro p hp s
  obtain ⟨hk, hi, hinfo⟩ : p.1.kind = .bSelect ∧ 9 ≤ (BitVec.ofNat 4 p.1.placed.value).toNat ∧
      (BitVec.ofNat 4 p.1.placed.value).setWidth 32 = BitVec.ofNat 32 p.2 := by
    revert p
    decide
  rw [exec_invalidBRow hk hi, ← hinfo]
  exact ⟨fun hs => invalidB_permissive hs _, fun hs => invalidB_strict hs _⟩

/-- Settles O12: the row of a code is the ALU with that code, which has one meaning in each mode where the map has no
function. -/
theorem aluRowsWithoutAFunction : Obligations.AluRowsWithoutAFunction := by
  unfold Obligations.AluRowsWithoutAFunction
  intro k s hf
  rw [exec_aluRow_of_code, BitVec.ofNat_toNat]
  exact ⟨aluStep_permissive hf, aluStep_strict hf⟩

/-- Settles O30: the rows of four families write a bus, the ALU's outputs or the memory unit's, or raise a fault, and
those of the other three raise none. -/
theorem rowsWriteFaultOnlyByRaising : Obligations.RowsWriteFaultOnlyByRaising := by
  unfold Obligations.RowsWriteFaultOnlyByRaising
  intro i s t h
  cases hk : i.kind with
  | bSelect =>
    obtain ⟨v, rfl⟩ | hraise := bRow_cases hk h
    exacts [.inl rfl, .inr hraise]
  | aluOp =>
    obtain ⟨r, rfl⟩ | hraise := aluRow_cases hk h
    exacts [.inl rfl, .inr hraise]
  | shift =>
    obtain ⟨v, rfl⟩ | hraise := shiftRow_cases hk h
    exacts [.inl rfl, .inr hraise]
  | memOps =>
    obtain hraise | ⟨v, rfl⟩ | ⟨-, v, rfl⟩ | ⟨m, rfl⟩ := memRow_cases hk h
    exacts [.inr hraise, .inl rfl, .inl rfl, .inl rfl]
  | cDest | jump | nextAddr => cases i <;> cases hk <;> cases h <;> exact .inl rfl

/-! ### The fault that a cycle records -/

/-- What a step leaves in FAULT (R232, R238). -/
theorem fault_of_step {s t : State} (h : step s = .next t) : t.fault = firstFault s := by
  obtain ⟨hs, -⟩ := step_eq_next_iff.mp h
  cases hf : firstFault s with
  | some f => rw [step_of_firstFault hs hf] at h; cases h; rfl
  | none => rw [step_of_noFault hs hf] at h; cases h; exact hs

theorem faultCode_of_unfaulted {s : State} (h : s.fault = none) : faultCode s = 0 := by
  rw [faultCode, h]

/-- Settles O36: FAULT is the closed form's, and the codes are those of the table. -/
theorem recordedFaultIsTheFirstOfTheTable : Obligations.RecordedFaultIsTheFirstOfTheTable := by
  unfold Obligations.RecordedFaultIsTheFirstOfTheTable
  exact ⟨fun s t h => ⟨fault_of_step h, fun hf => faultCode_of_unfaulted ((fault_of_step h).trans hf)⟩, rfl⟩

/-! ### The faults of both modes -/

/-- A recorded fault is that of a row of the table whose condition holds (R231). -/
theorem exists_faultRow_of_firstFault {s : State} {f : FaultRecord} (hf : firstFault s = some f) :
    ∃ r ∈ faultTable s, r.holds = true ∧ r.record s.mpc = f := by
  rw [firstFault_eq_firstRecord, firstRecord, Option.map_eq_some_iff] at hf
  obtain ⟨r, hfind, hrecord⟩ := hf
  exact ⟨r, List.mem_of_find?_eq_some hfind, List.find?_some hfind, hrecord⟩

/-- A cycle faults where the condition of a row of the table holds (R231). -/
theorem faulted_of_faultRow {s : State} (hs : s.fault = none) (h : ∃ r ∈ faultTable s, r.holds = true) :
    ∃ t, Faulted s t := by
  obtain ⟨r, hr, hholds⟩ := h
  have hfirst : firstFault s ≠ none := fun hnone => by
    rw [firstFault_eq_firstRecord, firstRecord, Option.map_eq_none_iff, List.find?_eq_none] at hnone
    exact hnone r hr hholds
  obtain ⟨f, hf⟩ := Option.ne_none_iff_exists'.mp hfirst
  exact ⟨_, step_of_firstFault hs hf, nofun⟩

/-- The causes that both modes raise (R236). -/
def rangeCauses : List FaultCause := [.fetchOutOfRange, .readOutOfRange, .writeOutOfRange]

theorem code_of_mem_rangeCauses : ∀ c ∈ rangeCauses, 4 ≤ c.code ∧ c.code ≤ 6 := by decide

/-- In permissive mode only the conditions on ranges hold (R236). -/
theorem cause_mem_rangeCauses_of_permissive {s : State} (hs : s.params.strict = false) {r : FaultRow}
    (hr : r ∈ faultTable s) (hholds : r.holds = true) : r.cause ∈ rangeCauses := by
  simp only [faultTable, hs, Bool.false_and, List.mem_cons, List.not_mem_nil, or_false] at hr
  obtain rfl | rfl | rfl | rfl | rfl | rfl := hr
  · cases hholds
  · cases hholds
  · cases hholds
  · simp [rangeCauses]
  · simp [rangeCauses]
  · simp [rangeCauses]

/-- Settles O37: an access out of range is the condition of a row of the table, and the range rows alone do not ask the
mode. -/
theorem rangeFaultsHoldInBothModes : Obligations.RangeFaultsHoldInBothModes := by
  unfold Obligations.RangeFaultsHoldInBothModes
  refine ⟨fun s hs hrange => faulted_of_faultRow hs ?_, fun s t f hstrict hstep hf => ?_⟩
  · obtain ⟨hfetch, hpc⟩ | ⟨hread | hwrite, hmar⟩ := hrange
    · simp [faultTable, hfetch, hpc]
    · simp [faultTable, hread, hmar]
    · simp [faultTable, hwrite, hmar]
  · obtain ⟨r, hr, hholds, rfl⟩ := exists_faultRow_of_firstFault ((fault_of_step hstep).symm.trans hf)
    exact code_of_mem_rangeCauses r.cause (cause_mem_rangeCauses_of_permissive hstrict hr hholds)

/-! ### The host's actions -/

/-- A faulted core that is let run keeps its state (R213, R269). -/
theorem hostAct_run_of_faulted {s : State} (h : s.fault ≠ none) : hostAct .run (some s) = some s := by
  obtain ⟨f, hf⟩ := Option.ne_none_iff_exists'.mp h
  rw [hostAct, step_stopped hf]

/-- A reset leaves what its load leaves, whatever the core was before (R260, R269). -/
theorem hostAct_reset_eq_some_iff {p : Params} {memInit : Nat → Byte} {rom image : Option (List Byte)}
    {x : Option State} {t : State} :
    hostAct (.reset p memInit rom image) x = some t ↔ boot p memInit rom image = .ok t := by
  rw [hostAct]
  cases boot p memInit rom image with
  | ok u => rw [Option.some.injEq, Except.ok.injEq]
  | error e => exact ⟨nofun, nofun⟩

theorem boot_fault {p : Params} {memInit : Nat → Byte} {rom image : Option (List Byte)} {s : State}
    (h : boot p memInit rom image = .ok s) : s.fault = none := by
  obtain ⟨_, _, -, -, -, -, rfl⟩ := boot_eq_ok_iff.mp h
  rfl

/-- Settles O60: a faulted core has no cycle, and a reset is a load, which asks nothing of the state before it. -/
theorem onlyResetLeavesAFault : Obligations.OnlyResetLeavesAFault := by
  unfold Obligations.OnlyResetLeavesAFault
  exact ⟨fun s => rfl, fun s hs => hostAct_run_of_faulted hs,
    fun p memInit rom image x y => Option.ext fun t => hostAct_reset_eq_some_iff.trans hostAct_reset_eq_some_iff.symm,
    fun p memInit rom image x t h => boot_fault (hostAct_reset_eq_some_iff.mp h)⟩

end Sys2Proof.Machine
end

/-! ## Which files load, and the load of zeros (70_reset_and_hazards.md R264, R265, R267; 10_state.md section 6) -/

section
namespace Sys2Proof.Machine

/-- Settles O56: a load that leaves a state had both files, and the image was a good one. -/
theorem loadSucceedsExactlyOnGoodImages : Obligations.LoadSucceedsExactlyOnGoodImages := by
  unfold Obligations.LoadSucceedsExactlyOnGoodImages
  refine ⟨fun p memInit rom image => ⟨?loaded, ?good⟩, ?missing⟩
  case loaded =>
    rintro ⟨s, hboot⟩
    obtain ⟨romBytes, imageBytes, ⟨⟩, ⟨⟩, hrom, himage, -⟩ := boot_eq_ok_iff.mp hboot
    exact ⟨hrom, imageProblem_eq_none_iff.mp himage⟩
  case good =>
    rintro ⟨hrom, himage⟩
    exact ⟨_, boot_eq_ok_iff.mpr ⟨rom, image, rfl, rfl, hrom, imageProblem_eq_none_iff.mpr himage, rfl⟩⟩
  case missing =>
    intro p memInit rom image hmissing s hboot
    obtain ⟨romBytes, imageBytes, rfl, rfl, -⟩ := boot_eq_ok_iff.mp hboot
    exact hmissing.elim nofun nofun

/-! ### The load of zeros -/

theorem leValue_replicate_zero (n : Nat) : leValue (List.replicate n 0) = 0 := by
  induction n with
  | zero => rfl
  | succ n ih => rw [List.replicate_succ, leValue, ih]; rfl

/-- A control-store file of zeros holds the control store of the bare reset (log 7). -/
theorem romImage_replicate_zero (n : Nat) : romImage (List.replicate n 0) = Vector.replicate 512 0 := by
  ext i hi : 1
  rw [romImage, Vector.getElem_ofFn, Vector.getElem_replicate, romRecord, List.drop_replicate, List.take_replicate,
    leValue_replicate_zero]
  rfl

/-- A memory that holds at each address what an unlisted address reads as lists no byte (log 3). -/
theorem ofBytes_eq_nil {f : Nat → Byte} {n : Nat} (h : ∀ a < n, f a = unlisted a) : Memory.ofBytes f n = [] :=
  List.filterMap_eq_nil_iff.mpr fun a ha => if_pos (h a (List.mem_range.mp ha))

/-- The program image of length 20 whose initialization region is zero and whose program region is empty (R265). -/
def zeroImage : List Byte := 20#8 :: List.replicate 23 0

theorem imageLength_zeroImage : imageLength zeroImage = 20 := by decide

theorem imageProblem_zeroImage : imageProblem defaultParams.memSize zeroImage = none := by decide

/-- Past its length field, the image is zero. -/
theorem zeroImage_getD (a : Nat) : zeroImage.getD (4 + a) 0 = 0 := by
  rw [Nat.add_comm, zeroImage, List.getD_cons_succ, List.getD_eq_getElem?_getD,
    List.getElem?_getD_replicate_default_eq]

/-- The initialization region comes from the image and every other byte from `MEM_INIT`. -/
theorem loadedByte_zeroImage (a : Nat) : loadedByte (fun _ => 0) zeroImage a = 0 := by
  by_cases ha : a < 20
  · rw [loadedByte_init _ _ ha, zeroImage_getD]
  · rw [loadedByte_rest _ _ (Nat.not_lt.mp ha) (by rw [imageLength_zeroImage]; omega)]

/-- What a load of zeros leaves is the bare reset. -/
theorem bootState_zeros (n : Nat) :
    bootState defaultParams (fun _ => 0) (List.replicate n 0) zeroImage = State.reset := by
  rw [bootState, romImage_replicate_zero, ofBytes_eq_nil fun a _ => loadedByte_zeroImage a]
  rfl

/-- Settles O58: the two files are good, and the state they leave is the bare reset's. -/
theorem bareResetIsTheLoadOfZeroImages : Obligations.BareResetIsTheLoadOfZeroImages := by
  unfold Obligations.BareResetIsTheLoadOfZeroImages
  exact boot_eq_ok_iff.mpr ⟨_, zeroImage, rfl, rfl, List.length_replicate.ge, imageProblem_zeroImage,
    (bootState_zeros 4096).symm⟩

end Sys2Proof.Machine
end
